-- ==== Sys2Proof/Word.lean ====
section
/-! DEFINITION. The word types of CRC-ENUM (00_scope.md R10, R12; 20_memory.md R50, R52). Every value of the
block is unsigned (R10); nothing here does arithmetic. -/

namespace Sys2Proof

/-- A byte is 8 bits (R10). -/
abbrev Byte := BitVec 8

/-- A 16-bit quantity of the host interface: `len`, `seed`, a CRC16 (R51, R93). -/
abbrev Word16 := BitVec 16

/-- A packet is handed over whole; its length is `P` (R50, R92). List position `k` is byte offset `k`. -/
abbrev Packet := List Byte

/-- A Bus Address: 8 bytes, byte 0 the family code, byte 7 the CRC8 (R52, R90). -/
abbrev Addr := Vector Byte 8

/-- A bit position of an address, 1 to 64; 0 means "none" (R11). The type cannot hold the values above 64 that
R23 says no rule writes. -/
abbrev Position := Fin 65

/-- A bit position of the family byte, 1 to 8, or 0 for "none" (R20, R24). -/
abbrev FamilyPosition := Fin 9

end Sys2Proof
end

