-- ==== Sys2Proof/Syntax.lean ====
section
/-! DEFINITION. The commands of CRC-ENUM, one constructor for each row of spec/opcode_table.json (30_encoding.md
R92, R94). An operand list `buf` stands for the two operands `len` and `buf`: `len` is its length (log entry 17). -/

namespace Sys2Proof

/-- The eight commands (R94). -/
inductive Instr where
  /-- CRC8, 0x01, format B (R123). -/
  | crc8 (buf : List Byte)
  /-- CRC16, 0x02, format S (R128). -/
  | crc16 (seed : Word16) (buf : List Byte)
  /-- CHECK_CRC16, 0x03, format C (R130). -/
  | checkCrc16 (seed : Word16) (buf : List Byte) (pair0 pair1 : Byte)
  /-- CHECK_ADDR, 0x04, format A (R132). -/
  | checkAddr (addr : Addr)
  /-- SEARCH, 0x10, format N (R152). -/
  | search
  /-- RESET_SEARCH, 0x11, format N (R160). -/
  | resetSearch
  /-- TARGET_FAMILY, 0x12, format F (R162). -/
  | targetFamily (family : Byte)
  /-- GET_STATE, 0x13, format N (R166). -/
  | getState
  deriving DecidableEq, Repr

/-- The six packet formats (R92). -/
inductive Format where
  /-- opcode alone -/
  | n
  /-- opcode, family -/
  | f
  /-- opcode, eight address bytes -/
  | a
  /-- opcode, len, buf -/
  | b
  /-- opcode, seed, len, buf -/
  | s
  /-- opcode, seed, len, buf, pair -/
  | c
  deriving DecidableEq, Repr

/-- Why a packet is no command (R95). -/
inductive Reject where
  /-- The opcode is none of R94's eight values: status 0xFF. -/
  | illegal
  /-- The length `P` differs from the implied length `L`, or `L` cannot be computed: status 0xFE. -/
  | malformed
  deriving DecidableEq, Repr

end Sys2Proof
end

