-- ==== Sys2Proof/WellFormed.lean ====
section
/-! DEFINITION. Which terms of `Instr` a packet can carry: `len` is an unsigned 16-bit field (30_encoding.md R93),
so a buffer has at most 65535 bytes. Every other operand's type is already its field. -/

namespace Sys2Proof

/-- A buffer whose length fits the 16-bit `len` field (R93). -/
def bufferFits (buf : List Byte) : Bool := decide (buf.length < 2 ^ 16)

/-- The commands that have an encoding (R92, R93). -/
def Instr.wellFormed : Instr → Bool
  | .crc8 buf => bufferFits buf
  | .crc16 _ buf => bufferFits buf
  | .checkCrc16 _ buf _ _ => bufferFits buf
  | .checkAddr _ => true
  | .search => true
  | .resetSearch => true
  | .targetFamily _ => true
  | .getState => true

end Sys2Proof
end

