-- ==== Sys2Proof/Decode.lean ====
section
/-! DEFINITION. From a packet to a command and back (30_encoding.md R92 to R95), with the byte-order helpers of
00_scope.md R13 and 20_memory.md R51. Decoding is total on every list of bytes and rejects by name. -/

namespace Sys2Proof

/-! ## Byte order (R13, R51, R93) -/

/-- The unsigned value of bytes given low byte first (R51). -/
def fromBytes : List Byte → Nat
  | [] => 0
  | b :: bs => b.toNat + 256 * fromBytes bs

/-- The `n` bytes of `v` given low byte first (R51): what `MemWrite(addr, n, v)` of R13 lays down. -/
def toBytes : Nat → Nat → List Byte
  | 0, _ => []
  | n + 1, v => BitVec.ofNat 8 v :: toBytes n (v / 256)

/-- `MemRead(addr, n)` (R13): the `n` bytes at offset `addr` of a packet, low byte first; `none` where the packet
is too short to hold them (R95). -/
def memRead (p : Packet) (addr n : Nat) : Option Nat :=
  if addr + n ≤ p.length then some (fromBytes ((p.drop addr).take n)) else none

/-- One data byte of a packet (R13, `buf[k]`). The decoder reads only offsets the length check has admitted. -/
def byteAt (p : Packet) (k : Nat) : Byte := p.getD k 0

/-! ## The opcode map (R94) -/

/-- The opcode of a command (R94). -/
def Instr.opcode : Instr → Byte
  | .crc8 _ => 0x01
  | .crc16 _ _ => 0x02
  | .checkCrc16 _ _ _ _ => 0x03
  | .checkAddr _ => 0x04
  | .search => 0x10
  | .resetSearch => 0x11
  | .targetFamily _ => 0x12
  | .getState => 0x13

/-- The format of an opcode; `none` for the values R95 calls illegal. -/
def opcodeFormat (op : Byte) : Option Format :=
  if op = 0x01 then some .b
  else if op = 0x02 then some .s
  else if op = 0x03 then some .c
  else if op = 0x04 then some .a
  else if op = 0x10 then some .n
  else if op = 0x11 then some .n
  else if op = 0x12 then some .f
  else if op = 0x13 then some .n
  else none

/-- The implied length `L` of a packet of a format (R92): from the format alone (N, F, A) or with its `len` field
(B, S, C); `none` where the packet is too short to hold that field. -/
def formatLength (p : Packet) : Format → Option Nat
  | .n => some 1
  | .f => some 2
  | .a => some 9
  | .b => (memRead p 1 2).map (3 + ·)
  | .s => (memRead p 3 2).map (5 + ·)
  | .c => (memRead p 3 2).map (7 + ·)

/-- The implied length of a packet (R92); `none` for an empty packet, an illegal opcode or a missing `len`. -/
def impliedLength (p : Packet) : Option Nat :=
  match p with
  | [] => none
  | op :: _ => (opcodeFormat op).bind (formatLength p)

/-! ## The decoder, format by format (R92, R93, R95, and the length check that opens each operation's pseudocode) -/

/-- Format N: the command `i` has no operand. -/
def decodeN (i : Instr) (p : Packet) : Except Reject Instr :=
  if p.length = 1 then .ok i else .error .malformed

/-- Format F (R162). -/
def decodeF (p : Packet) : Except Reject Instr :=
  if p.length = 2 then .ok (.targetFamily (byteAt p 1)) else .error .malformed

/-- Format A (R132). -/
def decodeA (p : Packet) : Except Reject Instr :=
  if p.length = 9 then
    .ok (.checkAddr #v[byteAt p 1, byteAt p 2, byteAt p 3, byteAt p 4, byteAt p 5, byteAt p 6, byteAt p 7, byteAt p 8])
  else .error .malformed

/-- Format B (R123). -/
def decodeB (p : Packet) : Except Reject Instr :=
  match memRead p 1 2 with
  | none => .error .malformed
  | some len => if p.length = 3 + len then .ok (.crc8 (p.drop 3)) else .error .malformed

/-- Format S (R128). A packet that holds `len` holds `seed` too. -/
def decodeS (p : Packet) : Except Reject Instr :=
  match memRead p 1 2, memRead p 3 2 with
  | some seed, some len =>
    if p.length = 5 + len then .ok (.crc16 (BitVec.ofNat 16 seed) (p.drop 5)) else .error .malformed
  | _, _ => .error .malformed

/-- Format C (R130): the two bytes after the buffer are the received pair. -/
def decodeC (p : Packet) : Except Reject Instr :=
  match memRead p 1 2, memRead p 3 2 with
  | some seed, some len =>
    if p.length = 7 + len then
      .ok (.checkCrc16 (BitVec.ofNat 16 seed) ((p.drop 5).take len) (byteAt p (5 + len)) (byteAt p (6 + len)))
    else .error .malformed
  | _, _ => .error .malformed

/-- The command of a packet (R92 to R95): the opcode is looked at first (R194), then the length. An empty packet is
malformed. -/
def decode (p : Packet) : Except Reject Instr :=
  match p with
  | [] => .error .malformed
  | op :: _ =>
    if op = 0x01 then decodeB p
    else if op = 0x02 then decodeS p
    else if op = 0x03 then decodeC p
    else if op = 0x04 then decodeA p
    else if op = 0x10 then decodeN .search p
    else if op = 0x11 then decodeN .resetSearch p
    else if op = 0x12 then decodeF p
    else if op = 0x13 then decodeN .getState p
    else .error .illegal

/-! ## The encoder (R92, R94) -/

/-- The packet of a command (R92, R94). Faithful for a well-formed command. -/
def encode : Instr → Packet
  | .crc8 buf => 0x01 :: (toBytes 2 buf.length ++ buf)
  | .crc16 seed buf => 0x02 :: (toBytes 2 seed.toNat ++ toBytes 2 buf.length ++ buf)
  | .checkCrc16 seed buf pair0 pair1 =>
    0x03 :: (toBytes 2 seed.toNat ++ toBytes 2 buf.length ++ buf ++ [pair0, pair1])
  | .checkAddr addr => 0x04 :: addr.toList
  | .search => [0x10]
  | .resetSearch => [0x11]
  | .targetFamily family => [0x12, family]
  | .getState => [0x13]

/-! ## The opcode table's words -/

/-- The packet of a table word (log entry 21): the `nbits` bits of `w` as bytes, first byte lowest, then zero bytes up
to the length the opcode and the (zero) `len` field imply. -/
def tableWordPacket (nbits w : Nat) : Packet :=
  let bytes := toBytes ((nbits + 7) / 8) (w % 2 ^ nbits)
  match impliedLength (bytes ++ List.replicate 7 0) with
  | none => bytes
  | some len => bytes ++ List.replicate (len - bytes.length) 0

/-- What the decoder reads from a table word, the bits above `nbits` zero. -/
def decodeTableWord (nbits w : Nat) : Option Instr :=
  match decode (tableWordPacket nbits w) with
  | .ok i => some i
  | .error _ => none

end Sys2Proof
end

