-- ==== Sys2Proof/Config.lean ====
section
/-! DEFINITION. What is fixed for the machine: the parameters of 00_scope.md R7 and the environment's control
bytes (20_memory.md R67), and the open parameters of R9 and the free bus answers (R69) as opaque constants. -/

namespace Sys2Proof.Config

/-- Bit positions scanned by one pass (R7). -/
def addrBits : Nat := 64

/-- Positions 1 to 8 are the family byte (R7, R11). -/
def familyBits : Nat := 8

/-- The Search-ROM command byte (R7, R67). -/
def searchRom : Byte := 0xF0

/-- The last-discrepancy value set by the family seeding (R7, R162; 90_conflicts.md C1: the number 64 wins). -/
def targetLd : Position := 64

/-! The control bytes of the transport (R67). They belong to the environment; the block uses `searchRom` only. -/

/-- Switch to data mode (R67). -/
def toDataMode : Byte := 0xE1
/-- Switch to command mode (R67). -/
def toCommandMode : Byte := 0xE3
/-- Bus reset (R62, R67). -/
def busResetByte : Byte := 0xC1
/-- Write-1-bit, also the read time slot (R64, R65, R67). -/
def writeOne : Byte := 0x91
/-- Write-0-bit (R65, R67). -/
def writeZero : Byte := 0x81
/-- The reply to a bus reset that means presence (R62, R67). -/
def presenceReply : Byte := 0xCD

/-- Match-ROM, "select" (R67); the block does not send it. -/
def matchRom : Byte := 0x55
/-- Skip-ROM (R67); the block does not send it. -/
def skipRom : Byte := 0xCC
/-- Read-power-supply (R67); the block does not send it. -/
def readPowerSupply : Byte := 0xB4

/-- The family codes the source lists (R68). The block does not interpret them and accepts any 8-bit value. -/
def listedFamilyCodes : List Byte := [0x10, 0x22, 0x28, 0x29, 0x1D, 0x05, 0x12, 0x3A, 0x20]

/-- SPIN_BOUND: the bound on every wait for a transport reply (R9, U1). The spec gives no number. -/
opaque spinBound : Nat

/-- ECHO_DECODE: how the bridge chip's echo byte encodes a sampled bit (R9, U2). Not given. -/
opaque echoDecode : Byte → Bool

/-- RESERVED_DATA_BYTES: the "three reserved control-byte values" the transport escapes (R9, R63, U3). Never listed. -/
opaque reservedDataBytes : Vector Byte 3

/-- FREE VALUE: the answer of the bus when nothing in the state scripts it (R69: any boolean from `BusReset`, any
bit from each `BusReadBit`), one fresh value for each value of the counter `Port.drawn` (log entry 5). -/
opaque freeAnswer : Nat → Bool

end Sys2Proof.Config
end

