-- ==== Sys2Proof/Machine/State.lean ====
section
/-! DEFINITION. The state of CRC-ENUM as plain data: the four persistent items of 10_state.md R20, the host
interface (20_memory.md R50, 30_encoding.md R96) and the bus port with its environment (10_state.md R32, 20_memory.md
R62 to R74), and the state after hardware reset (10_state.md R34, 70_reset_and_hazards.md R220). -/

namespace Sys2Proof.Machine

/-- Why the block stops. It never does: "No behaviour of the block is left as `fault` or `stuck`"
(93_implementation_defined.md, Part 1; 60_exceptions.md R190, R199). Raised by nobody. -/
inductive Fault where
  deriving DecidableEq, Repr

/-- Why a command has no meaning in the model. -/
inductive Refusal where
  /-- Raised by `exec` alone, for a command whose meaning is not written yet; safe. No arm of `exec` answers it. -/
  | notModelled (mnemonic : String)
  deriving DecidableEq, Repr

/-- The status in byte 0 of a response (30_encoding.md R97). -/
inductive Status where
  /-- A command that completed normally; a SEARCH that obtained a full address. -/
  | ok
  /-- SEARCH step 1: `LDF` was 1 ("no more devices"). -/
  | noMoreDevices
  /-- SEARCH step 2: no presence pulse (the source's `BusFault`, `NoPresence`, 60_exceptions.md R192). -/
  | noPresence
  /-- SEARCH step 4: both sampled bits were 1. -/
  | noResponse
  /-- SEARCH step 6: a complete pass with an all-zero address. -/
  | zeroAddress
  /-- A packet of the wrong length (30_encoding.md R95). -/
  | malformed
  /-- An undefined opcode (30_encoding.md R95). -/
  | illegal
  deriving DecidableEq, Repr

/-- The Bridge Transport's mode (10_state.md R32 (a)). It decides which UART bytes a primitive costs, never the value
the block receives. -/
inductive TransportMode where
  | command
  | data
  deriving DecidableEq, Repr

/-- One bus primitive as the block issued it, with the answer it got (20_memory.md R62 to R65). -/
inductive BusTxn where
  /-- `BusReset()` and the presence it returned (R62). -/
  | reset (presence : Bool)
  /-- `BusWriteByte(v)` (R63). -/
  | writeByte (v : Byte)
  /-- `BusReadBit()` and the bit it returned (R64). -/
  | readBit (b : Bool)
  /-- `BusWriteBit(d)` (R65). -/
  | writeBit (d : Bool)
  deriving DecidableEq, Repr

/-- One scripted reply of the environment to a `BusReset` or a `BusReadBit` (20_memory.md R66, R69). -/
inductive Reply where
  /-- The primitive returns this boolean or bit (R69). -/
  | answer (b : Bool)
  /-- No reply within the bound (R66). -/
  | timeout
  /-- The bridge chip's reply byte, arriving after so many polls (R62, R64, R66; log entry 13). -/
  | uart (polls : Nat) (byte : Byte)
  deriving DecidableEq, Repr

/-- What the participants of the ideal bus do next (20_memory.md R70). -/
inductive Phase where
  | bit
  | cmp
  | dir
  deriving DecidableEq, Repr

/-- The reference environment (20_memory.md R70): `DEV`, `P`, `n`, `phase`. -/
structure IdealBus where
  /-- `DEV`, the devices present: a set (`validDevices` says when the list has no repeats). -/
  dev : List Addr
  /-- `P`, the participants of the current pass. -/
  part : List Addr
  /-- `n`, the position the participants are at. -/
  pos : Nat
  /-- `phase`. -/
  phase : Phase
  deriving DecidableEq, Repr

/-- What answers the block (20_memory.md R69 to R74). -/
inductive Line where
  /-- Any answers at all (R69): these replies, oldest first, then free values (log entry 5). -/
  | scripted (replies : List Reply)
  /-- The ideal bus (R70 to R74), a premise of claims only. -/
  | ideal (bus : IdealBus)
  deriving DecidableEq, Repr

/-- The bus port: the environment the block depends on but does not own (10_state.md R32), and the sequence of bus
primitives the block has issued (00_scope.md R15). -/
structure Port where
  /-- The transport's mode (R32 (a)). -/
  mode : TransportMode
  /-- The devices and what they answer (R32 (b), R69). -/
  line : Line
  /-- The model's own counter: how many free answers have been drawn (log entry 6). -/
  drawn : Nat
  /-- The primitives issued so far, oldest first (R15, R80; log entry 16). -/
  trace : List BusTxn
  deriving DecidableEq, Repr

/-- One move of the world outside the block, between two commands or during one. -/
inductive Input where
  /-- The host takes the previous response and hands over this packet (30_encoding.md R92, R226). -/
  | packet (p : Packet)
  /-- Hardware reset while the block is idle (R220). -/
  | hardwareReset
  /-- The host hands over this packet and a hardware reset arrives when `finished` of the command's bus transactions
  are complete (R221; log entry 10). -/
  | resetDuring (p : Packet) (finished : Nat)
  /-- The environment changes between commands: devices join or leave, the transport is used by others, `begin()`
  (R222, R228, R229; log entry 11). -/
  | environment (mode : TransportMode) (line : Line)
  deriving DecidableEq, Repr

/-- Everything the spec gives the machine. -/
structure State where
  /-- `LD`, last discrepancy (10_state.md R23). -/
  ld : Position
  /-- `LFD`, last family discrepancy (R24). -/
  lfd : FamilyPosition
  /-- `LDF`, last-device flag (R25). -/
  ldf : Bool
  /-- `ROM[0..7]`, working address buffer (R27). -/
  rom : Addr
  /-- The bus port and its environment (R32, R62 to R74). -/
  port : Port
  /-- The response pending for the host, `none` when there is none (R34, R96, R226). -/
  response : Option Packet
  /-- What the outside world does next, oldest first (R15, R226; log entry 2). -/
  inputs : List Input
  deriving DecidableEq, Repr

/-- Eight zero bytes (R34, R160). -/
def zeroAddr : Addr := #v[0, 0, 0, 0, 0, 0, 0, 0]

/-- The machine right after hardware reset (R34, R220): `LD`, `LFD`, `LDF` and `ROM` zero, no response pending, the
transport in Command Mode, nothing issued. The host has handed over nothing and the environment's answers are free
(log entries 2 and 6). -/
def State.reset : State where
  ld := 0
  lfd := 0
  ldf := false
  rom := zeroAddr
  port := { mode := .command, line := .scripted [], drawn := 0, trace := [] }
  response := none
  inputs := []

end Sys2Proof.Machine
end

