-- ==== Sys2Proof/Machine/Operands.lean ====
section
/-! DEFINITION. The forms in which the block reads and writes an address and an operand: bit positions of an address
(00_scope.md R11, R12), the two bytes of a 16-bit value (20_memory.md R51), the inverted CRC pair (30_encoding.md R91)
and the bytes of an address in a packet (20_memory.md R52). -/

namespace Sys2Proof.Machine

/-- Bit `i` of a byte set to `d`, the others unchanged (R12). -/
def setByteBit (v : Byte) (i : Nat) (d : Bool) : Byte :=
  if d then v ||| (1#8 <<< i) else v &&& ~~~(1#8 <<< i)

/-- `AddrBit(A, n)` is bit `(n-1) mod 8` of byte `(n-1) div 8` (R11), for `n` from 1 to 64. Position 0 is never a bit
(R11) and no rule reads it (DESIGN CHOICE, log entry 18). Above 64 there is no bit either; DESIGN CHOICE: the model
reads 0 there, and no command reads it (log entry 24). -/
def addrBit (a : Addr) (n : Nat) : Bool := (a[(n - 1) / 8]?.getD 0).getLsbD ((n - 1) % 8)

/-- `SetRomBit(n, d)` on an address (R12): bit `(n-1) mod 8` of byte `(n-1) div 8` becomes `d`, every other bit is
unchanged. DESIGN CHOICE: at a position above 64 the address is unchanged; no command writes there (log entry 24). -/
def setAddrBit (a : Addr) (n : Nat) (d : Bool) : Addr :=
  a.setIfInBounds ((n - 1) / 8) (setByteBit (a[(n - 1) / 8]?.getD 0) ((n - 1) % 8) d)

/-- Bits 7:0 of a 16-bit value (R10, R51). -/
def lowByte (v : Word16) : Byte := v.setWidth 8

/-- Bits 15:8 of a 16-bit value (R10, R51). -/
def highByte (v : Word16) : Byte := (v >>> 8).setWidth 8

/-- The inverted CRC16 pair of a CRC, low byte first (R91): `NOT_16(crc)`. -/
def invertedPair (crc : Word16) : List Byte := [lowByte (~~~crc), highByte (~~~crc)]

/-- An address that seeds a family search: the family code in byte 0, zeros elsewhere (R27, R162). -/
def familySeed (family : Byte) : Addr := #v[family, 0, 0, 0, 0, 0, 0, 0]

/-- The positions one pass scans, 1 to 64 in ascending order (R11, R52). -/
def positions : List Position := (List.finRange (Config.addrBits + 1)).tail

end Sys2Proof.Machine
end

