-- ==== Sys2Proof/Machine/Bus.lean ====
section
/-! DEFINITION. The four bus primitives (20_memory.md R62 to R66) over the environment of the state: scripted or free
answers (R69), or the ideal bus (R70 to R74); and what they cost on the UART (R67). -/

namespace Sys2Proof.Machine

/-! ## Replies of the transport (R62, R64, R66) -/

/-- The presence a reply means: a byte within the bound that is the success value (R62); a time-out is `false`
(R66). -/
def Reply.presence : Reply → Bool
  | .answer b => b
  | .timeout => false
  | .uart polls byte => decide (polls ≤ Config.spinBound) && decide (byte = Config.presenceReply)

/-- The bit a reply means: the echoed sampled value (R64); a time-out is 0 (R66). -/
def Reply.bit : Reply → Bool
  | .answer b => b
  | .timeout => false
  | .uart polls byte => decide (polls ≤ Config.spinBound) && Config.echoDecode byte

/-! ## The ideal bus (R70 to R73) -/

/-- `BusReset()` on the ideal bus (R71): every device takes part again.
DESIGN CHOICE (log entry 25): R62 has every device listen for a ROM command after it, R70 has no phase for that and R71
gives `n` and `phase` no new value; the model keeps both, so a bit read or written before the next 0xF0 acts at the
position and in the phase of the pass that the reset ended. No command reads or writes a bit there. -/
def IdealBus.busReset (b : IdealBus) : IdealBus := { b with part := b.dev }

/-- `BusWriteByte(v)` on the ideal bus (R71): the search command starts a search; the spec gives no other byte a
meaning and the block sends no other (log entry 12). -/
def IdealBus.busWriteByte (v : Byte) (b : IdealBus) : IdealBus :=
  if v = Config.searchRom then { b with pos := 1, phase := .bit } else b

/-- The line is a wired AND of what the participants drive (R72); with no participant it reads 1.
DESIGN CHOICE (log entry 24): at a position outside 1 to 64, where R11 defines no `AddrBit` (the bus stands at 65 after
the 64th write, and wherever it stands before the first search), a participant drives what `addrBit` gives there. No
command reads the bus at such a position. -/
def IdealBus.wiredAnd (b : IdealBus) (complement : Bool) : Bool :=
  b.part.all fun x => addrBit x b.pos ^^ complement

/-- `BusReadBit()` on the ideal bus (R72): the bit, then its complement. `free` is the answer in phase `dir`, where
R72 gives none (log entry 12). -/
def IdealBus.busReadBit (free : Bool) (b : IdealBus) : Bool × IdealBus :=
  match b.phase with
  | .bit => (b.wiredAnd false, { b with phase := .cmp })
  | .cmp => (b.wiredAnd true, { b with phase := .dir })
  | .dir => (free, b)

/-- `BusWriteBit(d)` on the ideal bus (R73), in phase `dir`: the participants that disagree with `d` drop out. In
another phase the spec gives no effect and the model none (log entry 12). -/
def IdealBus.busWriteBit (d : Bool) (b : IdealBus) : IdealBus :=
  match b.phase with
  | .dir => { b with part := b.part.filter (fun x => addrBit x b.pos == d), pos := b.pos + 1, phase := .bit }
  | .bit => b
  | .cmp => b

/-! ## The four primitives (R62 to R65) -/

/-- `BusReset()` (R62): returns the presence, and puts the transport in Command Mode. -/
def Port.busReset (p : Port) : Bool × Port :=
  match p.line with
  | .scripted [] =>
    let a := Config.freeAnswer p.drawn
    (a, { p with mode := .command, drawn := p.drawn + 1, trace := p.trace ++ [.reset a] })
  | .scripted (r :: rs) =>
    (r.presence, { p with mode := .command, line := .scripted rs, trace := p.trace ++ [.reset r.presence] })
  | .ideal b =>
    let a := !b.dev.isEmpty
    (a, { p with mode := .command, line := .ideal b.busReset, trace := p.trace ++ [.reset a] })

/-- `BusWriteByte(v)` (R63): returns nothing; a failed write is invisible (R66); Data Mode. -/
def Port.busWriteByte (v : Byte) (p : Port) : Port :=
  let q : Port := { p with mode := .data, trace := p.trace ++ [.writeByte v] }
  match p.line with
  | .scripted _ => q
  | .ideal b => { q with line := .ideal (b.busWriteByte v) }

/-- `BusReadBit()` (R64): returns one bit chosen by the environment (R69); Command Mode. -/
def Port.busReadBit (p : Port) : Bool × Port :=
  match p.line with
  | .scripted [] =>
    let a := Config.freeAnswer p.drawn
    (a, { p with mode := .command, drawn := p.drawn + 1, trace := p.trace ++ [.readBit a] })
  | .scripted (r :: rs) =>
    (r.bit, { p with mode := .command, line := .scripted rs, trace := p.trace ++ [.readBit r.bit] })
  | .ideal b =>
    let r := b.busReadBit (Config.freeAnswer p.drawn)
    let drawn := if b.phase = .dir then p.drawn + 1 else p.drawn
    (r.1, { mode := .command, line := .ideal r.2, drawn := drawn, trace := p.trace ++ [.readBit r.1] })

/-- `BusWriteBit(d)` (R65): returns nothing, any echo is ignored; Command Mode. -/
def Port.busWriteBit (d : Bool) (p : Port) : Port :=
  let q : Port := { p with mode := .command, trace := p.trace ++ [.writeBit d] }
  match p.line with
  | .scripted _ => q
  | .ideal b => { q with line := .ideal (b.busWriteBit d) }

/-- The effect on the port of one transaction that the block issued (R55), whatever was done with its answer. -/
def Port.issue (p : Port) : BusTxn → Port
  | .reset _ => p.busReset.2
  | .writeByte v => p.busWriteByte v
  | .readBit _ => p.busReadBit.2
  | .writeBit d => p.busWriteBit d

/-! ## The cost on the UART (R67): a function of the mode and the transactions, nothing the block sees -/

/-- The mode a primitive leaves the transport in (R62 to R65). -/
def BusTxn.modeAfter : BusTxn → TransportMode
  | .writeByte _ => .data
  | .reset _ => .command
  | .readBit _ => .command
  | .writeBit _ => .command

/-- The mode switch before a primitive: one control byte, only when it is needed (R67). -/
def switchBytes (now want : TransportMode) : List Byte :=
  if now = want then []
  else match want with
    | .command => [Config.toCommandMode]
    | .data => [Config.toDataMode]

/-- The bytes a primitive sends after the mode switch (R62 to R65); a written byte that is one of the reserved values
is sent twice (R63). -/
def BusTxn.payloadBytes : BusTxn → List Byte
  | .reset _ => [Config.busResetByte]
  | .writeByte v => if v ∈ Config.reservedDataBytes.toList then [v, v] else [v]
  | .readBit _ => [Config.writeOne]
  | .writeBit d => [if d then Config.writeOne else Config.writeZero]

/-- The UART bytes the transport sends for a sequence of primitives, starting in a mode (R67). -/
def uartBytes : TransportMode → List BusTxn → List Byte
  | _, [] => []
  | m, t :: ts => switchBytes m t.modeAfter ++ t.payloadBytes ++ uartBytes t.modeAfter ts

end Sys2Proof.Machine
end

