-- ==== Sys2Proof/Machine/Flags.lean ====
section
/-! DEFINITION. The flags and the discrepancy bookkeeping: the transient `match` and *found* results (10_state.md R29),
the choice of the direction bit (41_enumerator.md R155, R156), and `last_zero`, `LFD` and `LDF` (R156, R158). -/

namespace Sys2Proof.Machine

/-- The `match` byte of a response: 0x01 match, 0x00 no match (R29, 30_encoding.md R96). -/
def matchByte (m : Bool) : Byte := if m then 0x01 else 0x00

/-- A discrepancy: both sampled bits are 0 (R155). -/
def discrepancy (b c : Bool) : Bool := !b && !c

/-- The direction at position `n` for the sampled bits `b`, `c` (R155, R156): an agreed bit is adopted; at a
discrepancy the earlier choice is repeated before `LD`, the 1-branch is taken at `LD` and the 0-branch after it. -/
def direction (ld n : Position) (rom : Addr) (b c : Bool) : Bool :=
  if discrepancy b c then
    if n < ld then addrBit rom n else decide (n = ld)
  else b

/-- The 0-branch is chosen at a discrepancy (R156). -/
def zeroBranch (b c d : Bool) : Bool := discrepancy b c && !d

/-- `last_zero` after position `n` (R156). -/
def lastZeroAfter (zero : Bool) (n lastZero : Position) : Position := if zero then n else lastZero

/-- `LFD` after position `n`: written at the moment the 0-branch is chosen within the first 8 bits (R24, R156). -/
def lfdAfter (zero : Bool) (n : Position) (lfd : FamilyPosition) : FamilyPosition :=
  if h : zero = true ∧ n.val ≤ Config.familyBits then ⟨n.val, Nat.lt_succ_of_le h.2⟩ else lfd

/-- `LDF` after a complete pass: set exactly when `last_zero` is 0, else as it was (R25, R158). -/
def ldfAfter (lastZero : Position) (ldf : Bool) : Bool := if lastZero = 0 then true else ldf

end Sys2Proof.Machine
end

