-- ==== Sys2Proof/Machine/Ops.lean ====
section
/-! DEFINITION. The shared operations: the updates of the state, `respond` and `raise` (00_scope.md R13,
60_exceptions.md R190), and hardware reset (70_reset_and_hazards.md R220). The block has no exception to take: an
abnormal outcome ends the command with a status, saves nothing and transfers control nowhere (R190, R197). -/

namespace Sys2Proof.Machine

/-- The code of a status (30_encoding.md R97). -/
def Status.code : Status → Byte
  | .ok => 0x00
  | .noMoreDevices => 0x01
  | .noPresence => 0x02
  | .noResponse => 0x03
  | .zeroAddress => 0x04
  | .malformed => 0xFE
  | .illegal => 0xFF

/-! ## Updates of the state -/

/-- The bus port becomes `port`. -/
def State.setPort (port : Port) (s : State) : State := { s with port := port }

/-- `LD <- ld; LFD <- lfd; LDF <- ldf`. -/
def State.setSearch (ld : Position) (lfd : FamilyPosition) (ldf : Bool) (s : State) : State :=
  { s with ld := ld, lfd := lfd, ldf := ldf }

/-- `ROM <- rom`. -/
def State.setRom (rom : Addr) (s : State) : State := { s with rom := rom }

/-- The inputs that remain. -/
def State.setInputs (inputs : List Input) (s : State) : State := { s with inputs := inputs }

/-- No response is pending (R34). -/
def State.clearResponse (s : State) : State := { s with response := none }

/-- `respond(status, payload)`: ends the operation and builds the response packet (R13, R96). `raise <Status>(info)` is
the same with a failing status: it transfers control nowhere (R190). -/
def State.respond (status : Status) (payload : List Byte) (s : State) : State :=
  { s with response := some (status.code :: payload) }

/-! ## What the host reads of a response (R29, R96) -/

/-- The status byte of the pending response. -/
def State.statusByte (s : State) : Option Byte := s.response.bind List.head?

/-- The payload of the pending response. -/
def State.payload (s : State) : List Byte := (s.response.getD []).tail

/-- *found*: the response status is `OK` (R29). -/
def State.found (s : State) : Bool := s.statusByte = some Status.ok.code

/-! ## Packets that are no command, and hardware reset -/

/-- The status of a packet that is no command (R95). -/
def rejectStatus : Reject → Status
  | .illegal => .illegal
  | .malformed => .malformed

/-- An illegal or malformed packet: no state change, no bus transaction, a one-byte response (R95, R191). -/
def State.reject (r : Reject) (s : State) : State := s.respond (rejectStatus r) []

/-- Hardware reset (R34, R220): the four items zero, no response pending; no bus transaction, the devices untouched;
the transport's mode after reset is Command Mode (R34; log entry 23). -/
def State.hardwareReset (s : State) : State :=
  (((s.setSearch 0 0 false).setRom zeroAddr).setPort { s.port with mode := .command }).clearResponse

end Sys2Proof.Machine
end

