-- ==== Sys2Proof/Machine/Crc.lean ====
section
/-! DEFINITION. The CRC family (40_crc.md): the bit-serial functions R121 and R126, which are the normative ones, the
table forms R122 and R127 with the constant tables of 10_state.md R30, and the meanings of CRC8, CRC16, CHECK_CRC16 and
CHECK_ADDR. The values of the generators and tables are the spec's, marked there as general knowledge (log entry 8). -/

namespace Sys2Proof.Machine

/-! ## CRC8 (R121, R122) -/

/-- One bit of CRC8 (R121): `mix <- crc[0] XOR bit; crc <- crc >> 1; if mix = 1: crc <- crc XOR 0x8C`. -/
def crc8Bit (crc : Byte) (bit : Bool) : Byte :=
  if crc.getLsbD 0 ^^ bit then (crc >>> 1) ^^^ 0x8C else crc >>> 1

/-- The bits of a byte, least significant first (R53, R121). -/
def byteBits (v : Byte) : List Bool := (List.range 8).map fun j => v.getLsbD j

/-- One byte of CRC8 (R121). -/
def crc8Byte (crc v : Byte) : Byte := (byteBits v).foldl crc8Bit crc

/-- The running form of `crc8`, started at `crc` (R124 (b)). -/
def crc8From (crc : Byte) (buf : List Byte) : Byte := buf.foldl crc8Byte crc

/-- `crc8(buf)`, initial value 0 (R121). -/
def crc8 (buf : List Byte) : Byte := crc8From 0x00 buf

/-- The contents of `T8`, row `r` holding `T8[16r]` to `T8[16r+15]` (R122). -/
def t8Rows : List (List Byte) :=
  [[0x00, 0x5E, 0xBC, 0xE2, 0x61, 0x3F, 0xDD, 0x83, 0xC2, 0x9C, 0x7E, 0x20, 0xA3, 0xFD, 0x1F, 0x41],
   [0x9D, 0xC3, 0x21, 0x7F, 0xFC, 0xA2, 0x40, 0x1E, 0x5F, 0x01, 0xE3, 0xBD, 0x3E, 0x60, 0x82, 0xDC],
   [0x23, 0x7D, 0x9F, 0xC1, 0x42, 0x1C, 0xFE, 0xA0, 0xE1, 0xBF, 0x5D, 0x03, 0x80, 0xDE, 0x3C, 0x62],
   [0xBE, 0xE0, 0x02, 0x5C, 0xDF, 0x81, 0x63, 0x3D, 0x7C, 0x22, 0xC0, 0x9E, 0x1D, 0x43, 0xA1, 0xFF],
   [0x46, 0x18, 0xFA, 0xA4, 0x27, 0x79, 0x9B, 0xC5, 0x84, 0xDA, 0x38, 0x66, 0xE5, 0xBB, 0x59, 0x07],
   [0xDB, 0x85, 0x67, 0x39, 0xBA, 0xE4, 0x06, 0x58, 0x19, 0x47, 0xA5, 0xFB, 0x78, 0x26, 0xC4, 0x9A],
   [0x65, 0x3B, 0xD9, 0x87, 0x04, 0x5A, 0xB8, 0xE6, 0xA7, 0xF9, 0x1B, 0x45, 0xC6, 0x98, 0x7A, 0x24],
   [0xF8, 0xA6, 0x44, 0x1A, 0x99, 0xC7, 0x25, 0x7B, 0x3A, 0x64, 0x86, 0xD8, 0x5B, 0x05, 0xE7, 0xB9],
   [0x8C, 0xD2, 0x30, 0x6E, 0xED, 0xB3, 0x51, 0x0F, 0x4E, 0x10, 0xF2, 0xAC, 0x2F, 0x71, 0x93, 0xCD],
   [0x11, 0x4F, 0xAD, 0xF3, 0x70, 0x2E, 0xCC, 0x92, 0xD3, 0x8D, 0x6F, 0x31, 0xB2, 0xEC, 0x0E, 0x50],
   [0xAF, 0xF1, 0x13, 0x4D, 0xCE, 0x90, 0x72, 0x2C, 0x6D, 0x33, 0xD1, 0x8F, 0x0C, 0x52, 0xB0, 0xEE],
   [0x32, 0x6C, 0x8E, 0xD0, 0x53, 0x0D, 0xEF, 0xB1, 0xF0, 0xAE, 0x4C, 0x12, 0x91, 0xCF, 0x2D, 0x73],
   [0xCA, 0x94, 0x76, 0x28, 0xAB, 0xF5, 0x17, 0x49, 0x08, 0x56, 0xB4, 0xEA, 0x69, 0x37, 0xD5, 0x8B],
   [0x57, 0x09, 0xEB, 0xB5, 0x36, 0x68, 0x8A, 0xD4, 0x95, 0xCB, 0x29, 0x77, 0xF4, 0xAA, 0x48, 0x16],
   [0xE9, 0xB7, 0x55, 0x0B, 0x88, 0xD6, 0x34, 0x6A, 0x2B, 0x75, 0x97, 0xC9, 0x4A, 0x14, 0xF6, 0xA8],
   [0x74, 0x2A, 0xC8, 0x96, 0x15, 0x4B, 0xA9, 0xF7, 0xB6, 0xE8, 0x0A, 0x54, 0xD7, 0x89, 0x6B, 0x35]]

/-- `T8[i]` (R30, R122). -/
def t8 (i : Byte) : Byte := t8Rows.flatten.getD i.toNat 0

/-- The table form of CRC8, the source's "running XOR-indexed table lookup" (R122). -/
def crc8Table (buf : List Byte) : Byte := buf.foldl (fun crc v => t8 (crc ^^^ v)) 0x00

/-! ## CRC16 (R126, R127) -/

/-- One bit of CRC16 (R126): `low <- crc[0]; crc <- crc >> 1; if low = 1: crc <- crc XOR 0xA001`. -/
def crc16Shift (crc : Word16) : Word16 := if crc.getLsbD 0 then (crc >>> 1) ^^^ 0xA001 else crc >>> 1

/-- One byte of CRC16 (R126): XOR into the low byte, then eight shifts. -/
def crc16Byte (crc : Word16) (v : Byte) : Word16 := Nat.repeat crc16Shift 8 (crc ^^^ v.setWidth 16)

/-- `crc16(buf, seed)` (R126). -/
def crc16 (buf : List Byte) (seed : Word16) : Word16 := buf.foldl crc16Byte seed

/-- The contents of `PAR4` (R127). -/
def par4Table : List Bool :=
  [false, true, true, false, true, false, false, true, true, false, false, true, false, true, true, false]

/-- `PAR4[i]` (R30, R127). -/
def par4 (i : BitVec 4) : Bool := par4Table.getD i.toNat false

/-- One byte of the parity-table form of CRC16 (R127). -/
def crc16ParityByte (crc : Word16) (v : Byte) : Word16 :=
  let c : Byte := v ^^^ lowByte crc
  let shifted := crc >>> 8
  let mixed := if par4 (c.extractLsb' 0 4) ^^ par4 (c.extractLsb' 4 4) then shifted ^^^ 0xC001 else shifted
  mixed ^^^ (c.setWidth 16 <<< 6) ^^^ (c.setWidth 16 <<< 7)

/-- The parity-table form of CRC16, the source's "bitwise-parity-driven" scheme (R127). -/
def crc16Parity (buf : List Byte) (seed : Word16) : Word16 := buf.foldl crc16ParityByte seed

/-! ## The checks (R130, R132) -/

/-- `check_crc16` (R130): compares the inverted CRC16 with the received pair, low byte first. -/
def checkCrc16 (buf : List Byte) (seed : Word16) (pair0 pair1 : Byte) : Bool :=
  let inv := ~~~(crc16 buf seed)
  decide (lowByte inv = pair0) && decide (highByte inv = pair1)

/-- `checkAddressIntegrity` (R132): the CRC8 of bytes 0 to 6 equals byte 7. -/
def addrIntegrity (addr : Addr) : Bool := decide (crc8 (addr.toList.take 7) = addr[7])

/-! ## The meanings: no register read or written, no bus transaction (R120) -/

/-- CRC8 (R123). -/
def execCrc8 (buf : List Byte) (s : State) : Host.Outcome State Fault Refusal :=
  .next (s.respond .ok [crc8 buf])

/-- CRC16 (R128): the result is not inverted, low byte first. -/
def execCrc16 (seed : Word16) (buf : List Byte) (s : State) : Host.Outcome State Fault Refusal :=
  let crc := crc16 buf seed
  .next (s.respond .ok [lowByte crc, highByte crc])

/-- CHECK_CRC16 (R130): a mismatch is `match` = 0 with status `OK`. -/
def execCheckCrc16 (seed : Word16) (buf : List Byte) (pair0 pair1 : Byte) (s : State) :
    Host.Outcome State Fault Refusal :=
  .next (s.respond .ok [matchByte (checkCrc16 buf seed pair0 pair1)])

/-- CHECK_ADDR (R132): it reads the operand, not `ROM`. -/
def execCheckAddr (addr : Addr) (s : State) : Host.Outcome State Fault Refusal :=
  .next (s.respond .ok [matchByte (addrIntegrity addr)])

end Sys2Proof.Machine
end

