-- ==== Sys2Proof/Machine/Enumerator.lean ====
section
/-! DEFINITION. The enumerator family (41_enumerator.md): one search pass (R152 to R159) and the meanings of SEARCH,
RESET_SEARCH (R160), TARGET_FAMILY (R162) and GET_STATE (R166). -/

namespace Sys2Proof.Machine

/-! ## One pass -/

/-- What a pass works on (10_state.md R31): the temporaries `last_zero` and `ok`, and what it writes as it goes, `LFD`,
`ROM` and the port. The position `n` is the recursion's, `b`, `c` and `d` are those of one position. -/
structure Pass where
  /-- The pass result `ok`: no position has failed. -/
  ok : Bool
  /-- `last_zero`, 0 at the start of every pass. -/
  lastZero : Position
  lfd : FamilyPosition
  rom : Addr
  port : Port
  deriving DecidableEq, Repr

/-- The start of step 4 (R152): `last_zero <- 0`. -/
def startPass (s : State) (port : Port) : Pass :=
  { ok := true, lastZero := 0, lfd := s.lfd, rom := s.rom, port := port }

/-- Position `n` fails (R155, first row): both sampled bits are 1; nothing is written at this position. -/
def failPosition (p : Pass) (port : Port) : Pass := { p with ok := false, port := port }

/-- Position `n` is resolved to `d` (R155 to R157): the bookkeeping, then `SetRomBit(n, d)`, then the write. -/
def resolvePosition (n : Position) (b c d : Bool) (p : Pass) (port : Port) : Pass :=
  { ok := p.ok
    lastZero := lastZeroAfter (zeroBranch b c d) n p.lastZero
    lfd := lfdAfter (zeroBranch b c d) n p.lfd
    rom := setAddrBit p.rom n d
    port := port.busWriteBit d }

/-- One position of step 4 (R152, R155 to R157): read, read, decide. `ld` is the value `LD` held when the command
started. -/
def scanPosition (ld n : Position) (p : Pass) : Pass :=
  let r := p.port.busReadBit
  let q := r.2.busReadBit
  if r.1 && q.1 then failPosition p q.2
  else resolvePosition n r.1 q.1 (direction ld n p.rom r.1 q.1) p q.2

/-- Step 4 over the positions that are left; it ends early at the first that fails (R152, R199). -/
def scan (ld : Position) : List Position → Pass → Pass
  | [], p => p
  | n :: ns, p =>
    let q := scanPosition ld n p
    if q.ok then scan ld ns q else q

/-! ## SEARCH (R152) -/

/-- A failing exit (R154, R159): `LD <- 0; LFD <- 0; LDF <- 0`, `ROM` as it stands, the status and `ROM` in the
response. -/
def searchFailure (status : Status) (s : State) : State :=
  (s.setSearch 0 0 false).respond status s.rom.toList

/-- Steps 5 to 7 (R158, R159): the pass's results are written back, the all-zero address is refused, the address is
copied out. -/
def finishPass (p : Pass) (s : State) : State :=
  let t := (s.setRom p.rom).setPort p.port
  if p.ok then
    let u := t.setSearch p.lastZero p.lfd (ldfAfter p.lastZero s.ldf)
    if p.rom = zeroAddr then searchFailure .zeroAddress u else u.respond .ok p.rom.toList
  else searchFailure .noResponse t

/-- One SEARCH (R152), steps 1 to 7. -/
def search (s : State) : State :=
  if s.ldf then s.respond .noMoreDevices s.rom.toList
  else
    let r := s.port.busReset
    if r.1 then
      finishPass (scan s.ld positions (startPass s (r.2.busWriteByte Config.searchRom))) s
    else searchFailure .noPresence (s.setPort r.2)

/-- SEARCH, opcode 0x10 (R152): every failure is a status, so it always ends in a next state (R150, R199). -/
def execSearch (s : State) : Host.Outcome State Fault Refusal := .next (search s)

/-! ## The register operations: no bus transaction, always status `OK` (R150) -/

/-- RESET_SEARCH, opcode 0x11 (R160). -/
def execResetSearch (s : State) : Host.Outcome State Fault Refusal :=
  .next (((s.setSearch 0 0 false).setRom zeroAddr).respond .ok [])

/-- TARGET_FAMILY, opcode 0x12 (R162). -/
def execTargetFamily (family : Byte) (s : State) : Host.Outcome State Fault Refusal :=
  .next (((s.setSearch Config.targetLd 0 false).setRom (familySeed family)).respond .ok [])

/-- The 11-byte image of the state (10_state.md R28): the fields zero-extended to bytes, then `ROM`. -/
def stateImage (s : State) : List Byte :=
  BitVec.ofNat 8 s.ld.val :: BitVec.ofNat 8 s.lfd.val :: (if s.ldf then 0x01 else 0x00) :: s.rom.toList

/-- GET_STATE, opcode 0x13 (R166): returns the image and changes nothing. -/
def execGetState (s : State) : Host.Outcome State Fault Refusal := .next (s.respond .ok (stateImage s))

end Sys2Proof.Machine
end

