-- ==== Sys2Proof/Machine/Dispatch.lean ====
section
/-! DEFINITION. One arm for each command of spec/opcode_table.json. -/

namespace Sys2Proof.Machine

def exec (i : Instr) (s : State) : Host.Outcome State Fault Refusal :=
  match i with
  | .crc8 buf => Sys2Proof.Machine.execCrc8 buf s
  | .crc16 seed buf => Sys2Proof.Machine.execCrc16 seed buf s
  | .checkCrc16 seed buf pair0 pair1 => Sys2Proof.Machine.execCheckCrc16 seed buf pair0 pair1 s
  | .checkAddr addr => Sys2Proof.Machine.execCheckAddr addr s
  | .search => Sys2Proof.Machine.execSearch s
  | .resetSearch => Sys2Proof.Machine.execResetSearch s
  | .targetFamily family => Sys2Proof.Machine.execTargetFamily family s
  | .getState => Sys2Proof.Machine.execGetState s

end Sys2Proof.Machine
end

