-- ==== Sys2Proof/Machine/Inputs.lean ====
section
/-! DEFINITION. What each input of the outside world does (70_reset_and_hazards.md R220, R221, R226, R229): a packet
is decoded and executed, a hardware reset gives the reset state, the environment may change between commands; and where
the next packet is placed. -/

namespace Sys2Proof.Machine

/-- A packet is decoded and its command executed to completion (R226); one that is no command is answered by a status
(R95). -/
def runPacket (p : Packet) (s : State) : Host.Outcome State Fault Refusal :=
  match decode p with
  | .ok i => exec i s
  | .error r => .next (s.reject r)

/-- The bus transactions of the command that ran from `s` to `t`, of which only the first `finished` were complete
when a hardware reset came (R221). -/
def finishedTxns (s t : State) (finished : Nat) : List BusTxn :=
  (t.port.trace.drop s.port.trace.length).take finished

/-- A hardware reset during a command (R221): the finished transactions have had their effect on the bus, no further
one is issued, no response is produced, the state becomes the reset state (log entry 10). -/
def abandonPacket (p : Packet) (finished : Nat) (s : State) : Host.Outcome State Fault Refusal :=
  match runPacket p s with
  | .next t => .next (s.setPort ((finishedTxns s t finished).foldl Port.issue s.port)).hardwareReset
  | .fault f => .fault f
  | .refused r => .refused r

/-- The environment becomes another one (R222, R228, R229); the block's registers and response are not touched. -/
def changeEnvironment (mode : TransportMode) (line : Line) (s : State) : State :=
  s.setPort { s.port with mode := mode, line := line }

/-- The next packet is handed over before every other input. -/
def placePacket (p : Packet) (s : State) : State := s.setInputs (.packet p :: s.inputs)

end Sys2Proof.Machine
end

