-- ==== Sys2Proof/Machine/Step.lean ====
section
/-! DEFINITION. One step: the next input of the outside world, taken to completion (00_scope.md R15,
70_reset_and_hazards.md R226); with no input the block stays idle (60_exceptions.md R205, log entry 3). -/

namespace Sys2Proof.Machine

/-- One step of the machine. -/
def step (s : State) : Host.Outcome State Fault Refusal :=
  match s.inputs with
  | [] => .next s
  | .packet p :: rest => runPacket p (s.setInputs rest)
  | .hardwareReset :: rest => .next (s.setInputs rest).hardwareReset
  | .resetDuring p finished :: rest => abandonPacket p finished (s.setInputs rest)
  | .environment mode line :: rest => .next (changeEnvironment mode line (s.setInputs rest))

/-- The state in which the next step runs the table word `w` of `nbits` bits (log entries 2 and 21): its packet is the
next input. -/
def State.withFetchWord (s : State) (nbits w : Nat) : State := placePacket (tableWordPacket nbits w) s

end Sys2Proof.Machine
end

