-- ==== Sys2Proof/Machine/Pseudo.lean ====
section
/-! DEFINITION. The host's side of the interface (30_encoding.md R98, R99): the pseudo-instructions with their
expansions, the DISCOVER loop, and the text of a command and of a response. None of it runs in the block. -/

namespace Sys2Proof.Machine

/-! ## The host issues commands (70_reset_and_hazards.md R226) -/

/-- The state after the host issued one command to an idle block. Every command ends in a next state (R199). -/
def hostCommand (i : Instr) (s : State) : State :=
  match exec i s with
  | .next t => t
  | .fault _ => s
  | .refused _ => s

/-- `k` SEARCH commands in a row: the responses in order, and the state after the last. -/
def runSearches : Nat → State → List Packet × State
  | 0, s => ([], s)
  | k + 1, s =>
    let t := hostCommand .search s
    let r := runSearches k t
    (t.response.getD [] :: r.1, r.2)

/-! ## Pseudo-instructions (R99) -/

/-- `CRC16 [bytes]` is `CRC16 0x0000, [bytes]`. -/
def pseudoCrc16 (buf : List Byte) : Instr := .crc16 0 buf

/-- `CHECK_CRC16 [bytes], [pair]` is `CHECK_CRC16 0x0000, [bytes], [pair]`. -/
def pseudoCheckCrc16 (buf : List Byte) (pair0 pair1 : Byte) : Instr := .checkCrc16 0 buf pair0 pair1

/-- `CHECK_SCRATCHPAD [b0 ... b8]`: CRC8 of the first eight bytes, then the host compares the result with the ninth
(R99, 40_crc.md R125). -/
def checkScratchpad (record : Vector Byte 9) (s : State) : Bool × State :=
  let t := hostCommand (.crc8 (record.toList.take 8)) s
  (decide (t.payload = [record[8]]), t)

/-- The loop of `DISCOVER`: SEARCH is repeated while the status is `OK`, each such response contributes its address
(R99). `limit` bounds the number of SEARCH commands (log entry 20). -/
def discoverLoop : Nat → State → List (List Byte) × State
  | 0, s => ([], s)
  | limit + 1, s =>
    let t := hostCommand .search s
    if t.found then
      let r := discoverLoop limit t
      (t.payload :: r.1, r.2)
    else ([], t)

/-- `DISCOVER`: RESET_SEARCH, then the loop (R99). -/
def discover (limit : Nat) (s : State) : List (List Byte) × State :=
  discoverLoop limit (hostCommand .resetSearch s)

/-! ## Text of commands and responses (R98) -/

/-- One hexadecimal digit. -/
def hexDigit (v : Nat) : Char := ['0', '1', '2', '3', '4', '5', '6', '7', '8', '9', 'A', 'B', 'C', 'D', 'E', 'F'].getD v '0'

/-- A byte as two hexadecimal digits. -/
def hexByte (v : Byte) : List Char := [hexDigit (v.toNat / 16), hexDigit (v.toNat % 16)]

/-- A value with the `0x` prefix, high byte first. -/
def hexPrefixed (bytes : List Byte) : List Char := '0' :: 'x' :: bytes.flatMap hexByte

/-- Bytes in brackets, without prefix (R98). -/
def bracketed (bytes : List Byte) : List Char := '[' :: (List.intersperse [' '] (bytes.map hexByte)).flatten ++ [']']

/-- The assembler line of a command (R98). -/
def Instr.asm : Instr → List Char
  | .crc8 buf => "CRC8 ".toList ++ bracketed buf
  | .crc16 seed buf => "CRC16 ".toList ++ hexPrefixed [highByte seed, lowByte seed] ++ ", ".toList ++ bracketed buf
  | .checkCrc16 seed buf pair0 pair1 =>
    "CHECK_CRC16 ".toList ++ hexPrefixed [highByte seed, lowByte seed] ++ ", ".toList ++ bracketed buf ++ ", ".toList
      ++ bracketed [pair0, pair1]
  | .checkAddr addr => "CHECK_ADDR ".toList ++ bracketed addr.toList
  | .search => "SEARCH".toList
  | .resetSearch => "RESET_SEARCH".toList
  | .targetFamily family => "TARGET_FAMILY ".toList ++ hexPrefixed [family]
  | .getState => "GET_STATE".toList

/-- A response as R98 writes it: `-> [s p0 p1 ...]`. -/
def responseText (response : Packet) : List Char := "-> ".toList ++ bracketed response

end Sys2Proof.Machine
end

