-- ==== Sys2Proof/Safety.lean ====
section
/-! DEFINITION. What claims about the block are stated in: the invariants of an idle block (41_enumerator.md R167),
the premises of the ideal bus (20_memory.md R74), the enumeration order (R171) and the resumption point (R172). -/

namespace Sys2Proof.Machine

/-- The invariants of an idle block (R167): `LDF = 1` implies `LD = 0`, and `LD > 0` implies `RomBit(LD) = 0`. The
bounds `LD <= 64` and `LFD <= 8` hold by the fields' types. -/
abbrev State.idleInv (s : State) : Prop :=
  (s.ldf = true → s.ld = 0) ∧ (0 < s.ld → addrBit s.rom s.ld = false)

/-- The premises on the population of an ideal bus (R70, R74): a set, without the all-zero address. -/
abbrev validDevices (dev : List Addr) : Prop := dev.Nodup ∧ zeroAddr ∉ dev

/-- The block is on an ideal bus with these devices, whatever the devices are doing (R70). -/
abbrev State.onIdealBus (s : State) (dev : List Addr) : Prop :=
  ∃ b : IdealBus, s.port.line = .ideal b ∧ b.dev = dev

/-- `x` and `y` agree on positions 1 to `n-1`. -/
abbrev agreeBelow (x y : Addr) (n : Position) : Prop :=
  ∀ m : Position, 0 < m → m < n → addrBit x m = addrBit y m

/-- `x` comes before `y` in the enumeration order (R171): lexicographic on positions 1 to 64, 0 before 1. -/
abbrev searchBefore (x y : Addr) : Prop :=
  ∃ n : Position, 0 < n ∧ agreeBelow x y n ∧ addrBit x n = false ∧ addrBit y n = true

/-- An untaken 1-branch at `n` on the way to `x` (R172): `x` has a 0 there, and some device agrees with it on positions
1 to `n-1` and has a 1 at `n`. -/
abbrev branchLeft (dev : List Addr) (x : Addr) (n : Position) : Prop :=
  0 < n ∧ addrBit x n = false ∧ ∃ y ∈ dev, agreeBelow x y n ∧ addrBit y n = true

/-- `k` is where the enumeration resumes after `x` (R172): the deepest untaken 1-branch, or 0 if there is none. -/
abbrev resumesAt (dev : List Addr) (x : Addr) (k : Position) : Prop :=
  (k = 0 ∨ branchLeft dev x k) ∧ ∀ n : Position, k < n → ¬ branchLeft dev x n

/-- The four items are those of the reset state (R34): where an enumeration starts. -/
abbrev State.searchReset (s : State) : Prop :=
  s.ld = 0 ∧ s.lfd = 0 ∧ s.ldf = false ∧ s.rom = zeroAddr

/-- Two addresses that differ at position 64 only (R173, R174). -/
abbrev differOnlyAt64 (x y : Addr) : Prop := agreeBelow x y 64 ∧ addrBit x 64 ≠ addrBit y 64

/-! ## The answers of one pass (R151, R155) -/

/-- What happened at one position: the sampled bits `b` and `c`, and the direction bit `d` written (R155). -/
abbrev BitTriple := Bool × Bool × Bool

/-- The transactions of one resolved position: read, read, write (R151, R157). -/
def positionTxns (x : BitTriple) : List BusTxn := [.readBit x.1, .readBit x.2.1, .writeBit x.2.2]

/-- The transactions of a pass that got a presence pulse, up to the last resolved position (R151). -/
def passTxns (bits : List BitTriple) : List BusTxn :=
  .reset true :: .writeByte 0xF0 :: bits.flatMap positionTxns

/-- The 0-branch was taken at a discrepancy at position `n` (R156). -/
abbrev zeroTaken (bits : List BitTriple) (n : Position) : Prop :=
  0 < n ∧ bits[n.val - 1]? = some (false, false, false)

/-- Position `n` was resolved as R155 and R156 say: `new` holds the bit that was written there; the samples were not
both 1; an agreed bit was adopted; at a discrepancy `old` was repeated below `ld`, 1 taken at `ld`, 0 above. -/
abbrev resolvedBy (ld : Position) (old new : Addr) (bits : List BitTriple) (n : Position) : Prop :=
  ∃ b c : Bool, bits[n.val - 1]? = some (b, c, addrBit new n) ∧ (b && c) = false ∧
    addrBit new n = if b = c then (if n < ld then addrBit old n else decide (n = ld)) else b

/-! ## Buffers -/

/-- The defined opcodes (30_encoding.md R94). -/
def definedOpcodes : List Byte := [0x01, 0x02, 0x03, 0x04, 0x10, 0x11, 0x12, 0x13]

/-- A buffer with bit `j` of byte `k` flipped. -/
def flipBit (buf : List Byte) (k j : Nat) : List Byte := buf.modify k (· ^^^ (1#8 <<< j))

/-- The bytewise XOR of two buffers. -/
def xorBytes (a b : List Byte) : List Byte := List.zipWith (· ^^^ ·) a b

/-- A timed-out reply read as the default value (20_memory.md R66). -/
def Reply.defaulted : Reply → Reply
  | .timeout => .answer false
  | r => r

end Sys2Proof.Machine
end

