-- ==== Sys2Proof/Certificates/Slice0/Obligations.lean ====
section
/-! DEFINITION. The statements about CRC-ENUM for the provers, in the order of the spec: encoding, the step, the CRC
family, the register operations, SEARCH, the environment, enumeration on the ideal bus. -/

open Sys2Proof Sys2Proof.Machine
open Polynomial

/-! ## Encoding (30_encoding.md) -/

/-- R92, R94: decoding the packet of a well-formed command gives the command back, every operand at every value. -/
def Obligations.DecodeOfEncodeIsTheCommand : Prop :=
  ∀ i : Instr, i.wellFormed = true → decode (encode i) = .ok i

/-- R92, R94, R95: a packet the decoder accepts is the packet of exactly the command it gives, and that is
well-formed; so each command has one packet. -/
def Obligations.EncodeOfDecodeIsThePacket : Prop :=
  ∀ (p : Packet) (i : Instr), decode p = .ok i → i.wellFormed = true ∧ encode i = p

/-- R95: an undefined opcode is ILLEGAL, whatever follows it; an empty packet, and a defined opcode whose packet length
differs from the implied length (or is too short to have one), is MALFORMED; every other packet is a command. The step
answers with the one status byte and changes nothing else. -/
def Obligations.OtherPacketsAreAnsweredByAStatus : Prop :=
  (∀ p : Packet, decode p = .error .illegal ↔ ∃ op body, p = op :: body ∧ op ∉ definedOpcodes) ∧
  (∀ p : Packet, decode p = .error .malformed ↔
    p = [] ∨ ∃ op body, p = op :: body ∧ op ∈ definedOpcodes ∧ impliedLength p ≠ some p.length) ∧
  (∀ p : Packet, (∃ i, decode p = .ok i) ↔ impliedLength p = some p.length) ∧
  (∀ (s : State) (p : Packet) (rest : List Input), s.inputs = .packet p :: rest → decode p = .error .illegal →
    step s = .next { s with inputs := rest, response := some [0xFF] }) ∧
  (∀ (s : State) (p : Packet) (rest : List Input), s.inputs = .packet p :: rest → decode p = .error .malformed →
    step s = .next { s with inputs := rest, response := some [0xFE] })

/-- R92, R93: where each format keeps its fields, `len` and `seed` being `high byte, low byte` of two bytes low first. -/
def Obligations.FieldsStandAtTheirOffsets : Prop :=
  (∀ (l0 l1 : Byte) (buf : List Byte), buf.length = (l1 ++ l0 : BitVec 16).toNat →
    decode (0x01 :: l0 :: l1 :: buf) = .ok (.crc8 buf)) ∧
  (∀ (s0 s1 l0 l1 : Byte) (buf : List Byte), buf.length = (l1 ++ l0 : BitVec 16).toNat →
    decode (0x02 :: s0 :: s1 :: l0 :: l1 :: buf) = .ok (.crc16 (s1 ++ s0) buf)) ∧
  (∀ (s0 s1 l0 l1 q0 q1 : Byte) (buf : List Byte), buf.length = (l1 ++ l0 : BitVec 16).toNat →
    decode (0x03 :: s0 :: s1 :: l0 :: l1 :: (buf ++ [q0, q1])) = .ok (.checkCrc16 (s1 ++ s0) buf q0 q1)) ∧
  (∀ a : Addr, decode (0x04 :: a.toList) = .ok (.checkAddr a)) ∧
  (∀ f : Byte, decode [0x12, f] = .ok (.targetFamily f)) ∧
  decode [0x10] = .ok .search ∧ decode [0x11] = .ok .resetSearch ∧ decode [0x13] = .ok .getState

/-- A few packets, written out byte by byte from R92 and R94, decode to the commands they stand for. -/
def Obligations.WrittenOutPacketsDecode : Prop :=
  decode [0x01, 0x02, 0x00, 0x1C, 0xB8] = .ok (.crc8 [0x1C, 0xB8]) ∧
  decode [0x02, 0xBA, 0x14, 0x01, 0x00, 0x35] = .ok (.crc16 0x14BA [0x35]) ∧
  decode [0x03, 0x00, 0x00, 0x01, 0x00, 0x39, 0xC2, 0x44] = .ok (.checkCrc16 0 [0x39] 0xC2 0x44) ∧
  decode [0x12, 0x28] = .ok (.targetFamily 0x28) ∧ decode [0x10] = .ok .search

/-! ## The step -/

/-- R15, R226: a packet that decodes to a command is run by `exec`, from the state without that input. -/
def Obligations.StepRunsTheDecodedCommand : Prop :=
  ∀ (s : State) (p : Packet) (rest : List Input) (i : Instr), s.inputs = .packet p :: rest → decode p = .ok i →
    i.wellFormed = true ∧ step s = exec i { s with inputs := rest }

/-- Log entries 2 and 21 (the model's placing of a program): a table word that decodes is the very next command. -/
def Obligations.TableWordIsTheNextCommand : Prop :=
  ∀ (s : State) (nbits w : Nat) (i : Instr), decodeTableWord nbits w = some i →
    step (s.withFetchWord nbits w) = exec i s

/-- R205 and log entry 3 (the model's choice of a step for an idle block): with no input nothing changes. -/
def Obligations.IdleBlockStaysAsItIs : Prop :=
  ∀ s : State, s.inputs = [] → step s = .next s

/-- R199: every command terminates with one outcome, so every step has a next state. -/
def Obligations.EveryStepHasANextState : Prop :=
  ∀ s : State, ∃ t, step s = .next t

/-- R34, R220: hardware reset, in the idle block: the four items zero, no response pending, no bus transaction, the
devices untouched; the transport in Command Mode (R34, log entry 23). -/
def Obligations.HardwareResetLeavesTheResetState : Prop :=
  ∀ (s : State) (rest : List Input), s.inputs = .hardwareReset :: rest →
    step s = .next { ld := 0, lfd := 0, ldf := false, rom := #v[0, 0, 0, 0, 0, 0, 0, 0],
                     port := { s.port with mode := .command }, response := none, inputs := rest }

/-- R34: the values of the reset state the spec gives, and RESET_SEARCH gives the same four items. -/
def Obligations.ResetStateIsTheStateAfterResetSearch : Prop :=
  State.reset.ld = 0 ∧ State.reset.lfd = 0 ∧ State.reset.ldf = false ∧
  State.reset.rom = #v[0, 0, 0, 0, 0, 0, 0, 0] ∧ State.reset.response = none ∧ State.reset.port.mode = .command ∧
  ∀ s : State, ∃ t, exec .resetSearch s = .next t ∧ t.ld = State.reset.ld ∧ t.lfd = State.reset.lfd ∧
    t.ldf = State.reset.ldf ∧ t.rom = State.reset.rom

/-- R221 and log entry 10 (the model counts the finished transactions): a hardware reset during a command gives the
reset state and no response; of the command's bus transactions exactly the finished ones were issued, and when all were
finished the devices are as the whole command leaves them. -/
def Obligations.ResetDuringACommandAbandonsIt : Prop :=
  ∀ (s u : State) (p : Packet) (k : Nat) (rest : List Input), s.inputs = .resetDuring p k :: rest →
    runPacket p { s with inputs := rest } = .next u →
    ∃ (t : State) (txns : List BusTxn), step s = .next t ∧ t.searchReset ∧ t.response = none ∧ t.inputs = rest ∧
      u.port.trace = s.port.trace ++ txns ∧ t.port.trace = s.port.trace ++ txns.take k ∧
      (txns.length ≤ k → t.port.line = u.port.line)

/-- R228, R229 and log entry 11 (the model's input): a change of the environment touches no register, no response and
no transaction record. -/
def Obligations.EnvironmentChangeTouchesNoRegister : Prop :=
  ∀ (s : State) (mode : TransportMode) (line : Line) (rest : List Input),
    s.inputs = .environment mode line :: rest →
    step s = .next { s with inputs := rest, port := { s.port with mode := mode, line := line } }

/-! ## The CRC family (40_crc.md) -/

/-- R122, R123: CRC8 completes in every state; its response is the table-driven CRC8 of the buffer; nothing else
changes. -/
def Obligations.Crc8AnswersTheTableCrc : Prop :=
  ∀ (buf : List Byte) (s : State),
    exec (.crc8 buf) s = .next { s with response := some [0x00, crc8Table buf] }

/-- R122: `T8[i]` is eight shifts of `i`, and the table form gives the same result as R121 for every input. -/
def Obligations.TableFormOfCrc8Agrees : Prop :=
  (∀ i : Byte, t8 i = Nat.repeat (fun v : Byte => (v >>> 1) ^^^ (if v.getLsbD 0 then 0x8C else 0)) 8 i) ∧
  ∀ buf : List Byte, crc8Table buf = crc8 buf

/-- R124 (a) to (f): the properties of `crc8`. -/
def Obligations.PropertiesOfCrc8 : Prop :=
  crc8 [] = 0x00 ∧
  (∀ a b : List Byte, crc8 (a ++ b) = b.foldl (fun crc v => t8 (crc ^^^ v)) (crc8 a)) ∧
  (∀ a : List Byte, crc8 (a ++ [crc8 a]) = 0x00) ∧
  (∀ a b : List Byte, a.length = b.length → crc8 (xorBytes a b) = crc8 a ^^^ crc8 b) ∧
  (∀ (a : List Byte) (k j : Nat), k < a.length → j < 8 → crc8 (flipBit a k j) ≠ crc8 a) ∧
  (∀ n : Nat, crc8 (List.replicate n 0x00) = 0x00)

/-- A value as a polynomial over GF(2), reflected: bit 0 is the coefficient of the highest power (R121, R126). -/
noncomputable def Sys2Proof.reflectedPoly (w : Nat) (v : BitVec w) : (ZMod 2)[X] :=
  ∑ i ∈ Finset.range w, if v.getLsbD i then X ^ (w - 1 - i) else 0

/-- A buffer as a polynomial over GF(2): its bits in the order they are processed, least significant bit of each byte
first, the first bit the highest power (R53). -/
noncomputable def Sys2Proof.messagePoly (buf : List Byte) : (ZMod 2)[X] :=
  (buf.flatMap byteBits).foldl (fun m bit => m * X + if bit then 1 else 0) 0

/-- R121: `crc8` is the CRC with generator x^8 + x^5 + x^4 + 1, least significant bit first, initial value 0, no final
inversion: the remainder of the message times x^8. -/
def Obligations.Crc8IsARemainderOfItsGenerator : Prop :=
  ∀ buf : List Byte,
    reflectedPoly 8 (crc8 buf) = (messagePoly buf * X ^ 8) %ₘ (X ^ 8 + X ^ 5 + X ^ 4 + 1)

/-- R127, R128: CRC16 completes in every state; its response is the parity-table CRC16, not inverted, low byte first;
an empty buffer returns the seed; nothing else changes. -/
def Obligations.Crc16AnswersTheParityTableCrc : Prop :=
  (∀ (seed : Word16) (buf : List Byte) (s : State), ∃ lo hi : Byte, hi ++ lo = crc16Parity buf seed ∧
    exec (.crc16 seed buf) s = .next { s with response := some [0x00, lo, hi] }) ∧
  ∀ seed : Word16, crc16 [] seed = seed

/-- R127: `PAR4[i]` is the parity of `i`, and the parity-table form gives the same result as R126 for every buffer and
seed. -/
def Obligations.ParityTableFormOfCrc16Agrees : Prop :=
  (∀ i : BitVec 4, par4 i = (i.getLsbD 0 ^^ i.getLsbD 1 ^^ i.getLsbD 2 ^^ i.getLsbD 3)) ∧
  ∀ (buf : List Byte) (seed : Word16), crc16Parity buf seed = crc16 buf seed

/-- R129 (a) to (e): the properties of `crc16`. -/
def Obligations.PropertiesOfCrc16 : Prop :=
  (∀ s : Word16, crc16 [] s = s) ∧
  (∀ (a b : List Byte) (s : Word16), crc16 (a ++ b) s = crc16 b (crc16 a s)) ∧
  (∀ (a : List Byte) (s : Word16), crc16 (a ++ invertedPair (crc16 a s)) s = 0xB001) ∧
  (∀ (a : List Byte) (s : Word16) (k j : Nat), k < a.length → j < 8 → crc16 (flipBit a k j) s ≠ crc16 a s) ∧
  (∀ (a b : List Byte) (s r : Word16), a.length = b.length →
    crc16 (xorBytes a b) (s ^^^ r) = crc16 a s ^^^ crc16 b r)

/-- R126: `crc16` is the CRC with generator x^16 + x^15 + x^2 + 1, least significant bit first, initial value `seed`,
not inverted: the remainder of the message times x^16 plus the seed shifted past the message. -/
def Obligations.Crc16IsARemainderOfItsGenerator : Prop :=
  ∀ (buf : List Byte) (seed : Word16),
    reflectedPoly 16 (crc16 buf seed) =
      (messagePoly buf * X ^ 16 + reflectedPoly 16 seed * X ^ (8 * buf.length)) %ₘ (X ^ 16 + X ^ 15 + X ^ 2 + 1)

/-- R91, R130: CHECK_CRC16 completes in every state with `match` = 1 exactly when the pair is the inverted CRC, low byte
first; nothing else changes. -/
def Obligations.CheckCrc16ComparesTheInvertedPair : Prop :=
  ∀ (seed : Word16) (buf : List Byte) (q0 q1 : Byte) (s : State),
    exec (.checkCrc16 seed buf q0 q1) s =
      .next { s with response := some [0x00, if (q1 ++ q0 : BitVec 16) = ~~~(crc16Parity buf seed) then 0x01 else 0x00] }

/-- R131: CHECK_CRC16 accepts a buffer with its inverted CRC appended in low, high order, and rejects it with any single
bit of the buffer or of the pair flipped. -/
def Obligations.CheckCrc16AcceptsItsPairAndRejectsBitFlips : Prop :=
  ∀ (seed : Word16) (buf : List Byte) (lo hi : Byte) (s : State), hi ++ lo = ~~~(crc16 buf seed) →
    exec (.checkCrc16 seed buf lo hi) s = .next { s with response := some [0x00, 0x01] } ∧
    (∀ k j : Nat, k < buf.length → j < 8 →
      exec (.checkCrc16 seed (flipBit buf k j) lo hi) s = .next { s with response := some [0x00, 0x00] }) ∧
    (∀ j : Nat, j < 8 →
      exec (.checkCrc16 seed buf (lo ^^^ (1#8 <<< j)) hi) s = .next { s with response := some [0x00, 0x00] } ∧
      exec (.checkCrc16 seed buf lo (hi ^^^ (1#8 <<< j))) s = .next { s with response := some [0x00, 0x00] })

/-- R132: CHECK_ADDR completes in every state; `match` is 1 exactly when the CRC8 of all eight bytes is 0, so the
all-zero address matches; nothing else changes. -/
def Obligations.CheckAddrMatchesAZeroResidue : Prop :=
  (∀ (a : Addr) (s : State),
    exec (.checkAddr a) s = .next { s with response := some [0x00, if crc8 a.toList = 0x00 then 0x01 else 0x00] }) ∧
  (∀ (a : Addr), crc8 a.toList = 0x00 ↔ crc8 (a.toList.take 7) = a[7]) ∧
  crc8 zeroAddr.toList = 0x00

/-- R21, R120: a command of the CRC family answers from its operands alone, in any two states the same, and changes
nothing but the response. -/
def Obligations.CrcFamilyIsStateless : Prop :=
  ∀ (i : Instr) (s s' t t' : State),
    ((∃ buf, i = .crc8 buf) ∨ (∃ seed buf, i = .crc16 seed buf) ∨
      (∃ seed buf q0 q1, i = .checkCrc16 seed buf q0 q1) ∨ ∃ a, i = .checkAddr a) →
    exec i s = .next t → exec i s' = .next t' →
    t.response = t'.response ∧ t = { s with response := t.response }

/-! ## The register operations (41_enumerator.md R160 to R166) -/

/-- R160: RESET_SEARCH completes in every state, its effect and its frame; the GET_STATE after it. -/
def Obligations.ResetSearchClearsTheFourItems : Prop :=
  ∀ s : State, ∃ t : State, exec .resetSearch s = .next t ∧
    t = { s with ld := 0, lfd := 0, ldf := false, rom := #v[0, 0, 0, 0, 0, 0, 0, 0], response := some [0x00] } ∧
    exec .resetSearch t = .next t ∧
    exec .getState t = .next { t with response := some [0, 0, 0, 0, 0, 0, 0, 0, 0, 0, 0, 0] }

/-- R162: TARGET_FAMILY completes in every state for any family code, its effect and its frame; the GET_STATE after
it. -/
def Obligations.TargetFamilySeedsTheSearch : Prop :=
  ∀ (f : Byte) (s : State), ∃ t : State, exec (.targetFamily f) s = .next t ∧
    t = { s with ld := 64, lfd := 0, ldf := false, rom := #v[f, 0, 0, 0, 0, 0, 0, 0], response := some [0x00] } ∧
    exec .getState t = .next { t with response := some [0, 0x40, 0, 0, f, 0, 0, 0, 0, 0, 0, 0] }

/-- R28, R166: GET_STATE completes in every state: the image holds the four items zero-extended, the other bits read 0;
nothing changes. -/
def Obligations.GetStateAnswersTheImage : Prop :=
  ∀ s : State, ∃ b0 b1 b2 : Byte, b0.toNat = s.ld.val ∧ b1.toNat = s.lfd.val ∧ b2.toNat = s.ldf.toNat ∧
    b0.getLsbD 7 = false ∧ (∀ i, 4 ≤ i → b1.getLsbD i = false) ∧ (∀ i, 1 ≤ i → b2.getLsbD i = false) ∧
    exec .getState s = .next { s with response := some ([0x00, b0, b1, b2] ++ s.rom.toList) }

/-- R28, R204: what GET_STATE answers determines all four items. -/
def Obligations.GetStateImageDeterminesTheRegisters : Prop :=
  ∀ s s' t t' : State, exec .getState s = .next t → exec .getState s' = .next t' → t.response = t'.response →
    s.ld = s'.ld ∧ s.lfd = s'.lfd ∧ s.ldf = s'.ldf ∧ s.rom = s'.rom

/-- R150: SEARCH is the only operation that issues bus transactions; every other one leaves the port and the
inputs as they are and answers `OK`. -/
def Obligations.OnlySearchUsesTheBus : Prop :=
  ∀ (i : Instr) (s t : State), i ≠ .search → exec i s = .next t →
    t.port = s.port ∧ t.inputs = s.inputs ∧ t.statusByte = some 0x00

/-- R24: no operation but GET_STATE reads `LFD`: two states that differ in it alone give the same response and the same
other items. -/
def Obligations.OnlyGetStateReadsLfd : Prop :=
  ∀ (i : Instr) (s t u : State) (v : FamilyPosition), i ≠ .getState → exec i s = .next t →
    exec i { s with lfd := v } = .next u → u = { t with lfd := u.lfd }

/-- R12: `SetRomBit(n, d)` writes bit `n` and leaves every other bit of the address unchanged. -/
def Obligations.SetRomBitWritesOneBit : Prop :=
  ∀ (a : Addr) (n m : Position) (d : Bool), 0 < n → 0 < m →
    addrBit (setAddrBit a n d) m = if m = n then d else addrBit a m

/-! ## SEARCH (41_enumerator.md R150 to R159) -/

/-- R153: with `LDF` set, SEARCH answers NO_MORE_DEVICES with `ROM`, touches no bus and changes no state, and so does
every later SEARCH. -/
def Obligations.TerminalFlagIsSticky : Prop :=
  ∀ s : State, s.ldf = true →
    exec .search s = .next { s with response := some (0x01 :: s.rom.toList) } ∧
    ∀ k : Nat, (runSearches k s).1 = List.replicate k (0x01 :: s.rom.toList) ∧
      (runSearches k s).2.ldf = true ∧ (runSearches k s).2.port = s.port

/-- R154, R66: without a presence pulse SEARCH answers NO_PRESENCE, clears the three discrepancy fields, keeps `ROM`
and has issued the reset alone; a timed-out reset is that case. -/
def Obligations.NoPresenceAbandonsTheEnumeration : Prop :=
  ∀ s : State, s.ldf = false →
    (s.port.busReset.1 = false →
      ∃ t : State, exec .search s = .next t ∧
        t = { s with ld := 0, lfd := 0, ldf := false, port := t.port, response := some (0x02 :: s.rom.toList) } ∧
        t.port.trace = s.port.trace ++ [.reset false]) ∧
    ∀ rs : List Reply, s.port.line = .scripted (.timeout :: rs) → s.port.busReset.1 = false

/-- R151: the bus transactions of one SEARCH, in order, for each outcome. -/
def Obligations.SearchIssuesTheTransactionsOfItsOutcome : Prop :=
  ∀ s : State, ∃ (t : State) (txns : List BusTxn), exec .search s = .next t ∧
    t.port.trace = s.port.trace ++ txns ∧
    ((t.statusByte = some 0x01 ∧ txns = []) ∨
     (t.statusByte = some 0x02 ∧ txns = [.reset false]) ∨
     (t.statusByte = some 0x03 ∧ ∃ (n : Position) (bits : List BitTriple), 0 < n ∧ bits.length = n.val - 1 ∧
        txns = passTxns bits ++ [.readBit true, .readBit true] ∧ txns.length = 3 * n.val + 1) ∨
     ((t.statusByte = some 0x00 ∨ t.statusByte = some 0x04) ∧ ∃ bits : List BitTriple, bits.length = 64 ∧
        txns = passTxns bits ∧ txns.length = 194))

/-- R155 to R159: a SEARCH with status OK: the bits sampled and written are those of its transactions, each position is
resolved as R155 and R156 say, `LD` is the last 0-branch taken, `LFD` the last within the family byte or as it was,
`LDF` is set exactly when no 0-branch was taken; the response carries `ROM`. -/
def Obligations.SearchOkFollowsTheAnswers : Prop :=
  ∀ s t : State, exec .search s = .next t → t.statusByte = some 0x00 →
    s.ldf = false ∧ t.response = some (0x00 :: t.rom.toList) ∧ t.rom ≠ zeroAddr ∧ t.inputs = s.inputs ∧
    ∃ bits : List BitTriple, bits.length = 64 ∧ t.port.trace = s.port.trace ++ passTxns bits ∧
      (∀ n : Position, 0 < n → resolvedBy s.ld s.rom t.rom bits n) ∧
      (t.ld = 0 ∨ zeroTaken bits t.ld) ∧ (∀ n : Position, t.ld < n → ¬ zeroTaken bits n) ∧
      t.ldf = decide (t.ld = 0) ∧
      (∀ n : Position, n ≤ 8 → zeroTaken bits n → (∀ m : Position, n < m → m ≤ 8 → ¬ zeroTaken bits m) →
        t.lfd.val = n.val) ∧
      ((∀ n : Position, n ≤ 8 → ¬ zeroTaken bits n) → t.lfd = s.lfd)

/-- R155, R159: a SEARCH that fails at a position: both samples there were 1; the positions below are resolved in this
pass, the others are as they were; the three discrepancy fields are cleared. -/
def Obligations.SearchNoResponseKeepsTheRest : Prop :=
  ∀ s t : State, exec .search s = .next t → t.statusByte = some 0x03 →
    s.ldf = false ∧ t.ld = 0 ∧ t.lfd = 0 ∧ t.ldf = false ∧ t.response = some (0x03 :: t.rom.toList) ∧
    t.inputs = s.inputs ∧
    ∃ (n : Position) (bits : List BitTriple), 0 < n ∧ bits.length = n.val - 1 ∧
      t.port.trace = s.port.trace ++ passTxns bits ++ [.readBit true, .readBit true] ∧
      (∀ m : Position, 0 < m → m < n → resolvedBy s.ld s.rom t.rom bits m) ∧
      (∀ m : Position, n ≤ m → addrBit t.rom m = addrBit s.rom m)

/-- R159: a SEARCH that answers ZERO_ADDRESS made a complete pass, each position resolved as R155 and R156 say, whose
address is all zero, and cleared the three discrepancy fields; the response carries the zero address. -/
def Obligations.SearchZeroAddressIsAFailure : Prop :=
  ∀ s t : State, exec .search s = .next t → t.statusByte = some 0x04 →
    s.ldf = false ∧ t.ld = 0 ∧ t.lfd = 0 ∧ t.ldf = false ∧ t.rom = zeroAddr ∧
    t.response = some [0x04, 0, 0, 0, 0, 0, 0, 0, 0] ∧ t.inputs = s.inputs ∧
    ∃ bits : List BitTriple, bits.length = 64 ∧ t.port.trace = s.port.trace ++ passTxns bits ∧
      ∀ n : Position, 0 < n → resolvedBy s.ld s.rom t.rom bits n

/-- R69, R152: SEARCH completes with status OK on every sequence of answers in which no position is answered 1, 1 and
some position is answered 1, 0; it takes exactly the presence answer and 128 read answers, in order. -/
def Obligations.SearchCompletesOnEveryAnswerSequence : Prop :=
  ∀ (s : State) (pairs : List (Bool × Bool)) (rest : List Reply), s.ldf = false → pairs.length = 64 →
    (∀ x ∈ pairs, x ≠ (true, true)) → (true, false) ∈ pairs →
    s.port.line = .scripted (.answer true :: (pairs.flatMap fun x => [.answer x.1, .answer x.2]) ++ rest) →
    ∃ (t : State) (bits : List BitTriple), exec .search s = .next t ∧ t.statusByte = some 0x00 ∧
      t.port.line = .scripted rest ∧ t.port.drawn = s.port.drawn ∧
      bits.map (fun x => (x.1, x.2.1)) = pairs ∧ t.port.trace = s.port.trace ++ passTxns bits

/-- R66: a reply that timed out is read as the default value: SEARCH gives the same registers, response and
transactions. -/
def Obligations.TimedOutRepliesReadAsZero : Prop :=
  ∀ (s t u : State) (rs : List Reply),
    exec .search { s with port := { s.port with line := .scripted rs } } = .next t →
    exec .search { s with port := { s.port with line := .scripted (rs.map Reply.defaulted) } } = .next u →
    { u with port := { u.port with line := t.port.line } } = t

/-- R23, R27 (and 91 N4): no pass reads `ROM` while `LD` is 0: two states that differ in `ROM` alone complete a pass in
the same state. -/
def Obligations.RomIsNotReadWhileLdIsZero : Prop :=
  ∀ (s t u : State) (rom : Addr), s.ld = 0 → s.ldf = false → exec .search s = .next t →
    exec .search { s with rom := rom } = .next u →
    t.statusByte = u.statusByte ∧ ((t.statusByte = some 0x00 ∨ t.statusByte = some 0x04) → t = u)

/-- R167: the invariants of an idle block: they hold at reset and every step keeps them, whatever the environment; the
bounds; after a SEARCH with status OK `LDF` is 1 exactly when `LD` is 0; after any failing status but NO_MORE_DEVICES
the three discrepancy fields are 0. -/
def Obligations.InvariantsOfTheIdleBlock : Prop :=
  State.reset.idleInv ∧
  (∀ s t : State, s.idleInv → step s = .next t → t.idleInv ∧ t.ld.val ≤ 64 ∧ t.lfd.val ≤ 8) ∧
  (∀ s t : State, exec .search s = .next t → t.statusByte = some 0x00 → (t.ldf = true ↔ t.ld = 0)) ∧
  (∀ s t : State, exec .search s = .next t → t.statusByte ≠ some 0x00 → t.statusByte ≠ some 0x01 →
    t.ld = 0 ∧ t.lfd = 0 ∧ t.ldf = false)

/-- R167 at reset. -/
def Obligations.ResetStateMeetsTheInvariants : Prop := State.reset.idleInv

/-- R175 (a): SEARCH does not check the CRC8 of the address it returns: some pass answers OK with an address that
CHECK_ADDR rejects. -/
def Obligations.SearchDoesNotCheckTheCrc : Prop :=
  ∃ s t u : State, exec .search s = .next t ∧ t.statusByte = some 0x00 ∧
    exec (.checkAddr t.rom) t = .next u ∧ u.response = some [0x00, 0x00]

/-- R159, R162, R175 (b): on a line stuck at 0 SEARCH answers ZERO_ADDRESS from the reset registers, and OK after
TARGET_FAMILY, with an address no device need have. -/
def Obligations.StuckLineFromResetAndAfterASeed : Prop :=
  ∀ (s : State) (rest : List Reply), s.port.line = .scripted (.answer true :: List.replicate 128 (.answer false) ++ rest) →
    (s.searchReset → ∃ t, exec .search s = .next t ∧ t.response = some [0x04, 0, 0, 0, 0, 0, 0, 0, 0]) ∧
    ∀ (f : Byte) (u : State), exec (.targetFamily f) s = .next u →
      ∃ t, exec .search u = .next t ∧ t.response = some [0x00, f, 0, 0, 0, 0, 0, 0, 0x80] ∧ t.ld = 63 ∧ t.ldf = false

/-! ## The bus port (20_memory.md) -/

/-- Log entry 13 (the model's choice of a reply at the level of the transport): a reply byte that arrives after at most
SPIN_BOUND polls is in time; in time, the success value is presence and the decoded echo is the sampled bit; anything
else is the default. -/
def Obligations.ReplyBytesGiveOneBit : Prop :=
  ∀ (p : Port) (polls : Nat) (byte : Byte) (rs : List Reply), p.line = .scripted (.uart polls byte :: rs) →
    (p.busReset.1 = true ↔ polls ≤ Config.spinBound ∧ byte = 0xCD) ∧
    (p.busReadBit.1 = true ↔ polls ≤ Config.spinBound ∧ Config.echoDecode byte = true)

/-- R67: the UART bytes of a pass that starts in Command Mode, and the mode any SEARCH that touches the bus ends in. -/
def Obligations.UartBytesOfAPass : Prop :=
  (∀ bits : List BitTriple, bits ≠ [] →
    uartBytes .command (passTxns bits) =
      [0xC1, 0xE1] ++ (if 0xF0#8 ∈ Config.reservedDataBytes.toList then [0xF0, 0xF0] else [0xF0]) ++ [0xE3] ++
        bits.flatMap fun x => [0x91, 0x91, if x.2.2 then 0x91 else 0x81]) ∧
  ∀ s t : State, s.ldf = false → exec .search s = .next t → t.port.mode = .command

/-- R72, R73: the two reads of a position on the ideal bus: both 1 exactly when nobody takes part, both 0 exactly when
the participants disagree, different exactly when all agree, and then the first read is their bit; the write drops the
participants that disagree with it. At the positions 1 to 64 of R11 this is what R72 and R73 say; outside them R11 defines
no `AddrBit`, and that `addrBit` has a value there is the model's choice (log entry 24; entry 18 for position 0). -/
def Obligations.IdealBusReadsAreWiredAnds : Prop :=
  ∀ (b : IdealBus) (free d : Bool), b.phase = .bit →
    ∃ (x y : Bool) (b1 b2 : IdealBus), b.busReadBit free = (x, b1) ∧ b1.busReadBit free = (y, b2) ∧
      (x = true ∧ y = true ↔ b.part = []) ∧
      (x = false ∧ y = false ↔ ∃ u ∈ b.part, ∃ v ∈ b.part, addrBit u b.pos ≠ addrBit v b.pos) ∧
      (x ≠ y ↔ b.part ≠ [] ∧ ∀ u ∈ b.part, addrBit u b.pos = x) ∧
      b2.busWriteBit d = { b with part := b.part.filter (fun u => addrBit u b.pos == d), pos := b.pos + 1 }

/-! ## Enumeration on the ideal bus (41_enumerator.md R170 to R174) -/

/-- R172: a SEARCH on the ideal bus, from any state with the terminal flag clear, returns a device; `LD` is then the
deepest untaken 1-branch, or 0; and from there the next SEARCH returns the successor in the order of R171. -/
def Obligations.PassReturnsADeviceAndResumes : Prop :=
  ∀ (s : State) (dev : List Addr), validDevices dev → dev ≠ [] → s.onIdealBus dev → s.ldf = false →
    (∃ t : State, exec .search s = .next t ∧ t.rom ∈ dev ∧ t.response = some (0x00 :: t.rom.toList) ∧
      resumesAt dev t.rom t.ld ∧ t.ldf = decide (t.ld = 0) ∧ t.onIdealBus dev) ∧
    (s.rom ∈ dev → s.ld ≠ 0 → resumesAt dev s.rom s.ld →
      ∃ t : State, exec .search s = .next t ∧ t.rom ∈ dev ∧ t.response = some (0x00 :: t.rom.toList) ∧
        searchBefore s.rom t.rom ∧ ∀ z ∈ dev, searchBefore s.rom z → z = t.rom ∨ searchBefore t.rom z)

/-- R170, R171: on the ideal bus, from the reset registers, the first `N` SEARCH commands return the `N` devices, each
exactly once, in the ascending order of R171; the last sets `LDF`; every later SEARCH answers NO_MORE_DEVICES with no bus
transaction. With no device every SEARCH answers NO_PRESENCE. -/
def Obligations.EnumerationReturnsEveryDeviceOnce : Prop :=
  (∀ (s : State) (dev : List Addr), validDevices dev → dev ≠ [] → s.onIdealBus dev → s.searchReset →
    ∃ (order : List Addr) (t : State), order.Perm dev ∧ order.Pairwise searchBefore ∧
      runSearches dev.length s = (order.map fun x => 0x00 :: x.toList, t) ∧ t.ldf = true ∧
      ∀ k : Nat, (runSearches k t).1 = List.replicate k (0x01 :: t.rom.toList) ∧ (runSearches k t).2.port = t.port) ∧
  (∀ s : State, s.onIdealBus [] → s.searchReset →
    ∀ k : Nat, (runSearches k s).1 = List.replicate k (0x02 :: zeroAddr.toList))

/-- R171: the answers of an enumeration depend on the set of devices alone, not on the order they are held in or on what
they were doing. -/
def Obligations.EnumerationOrderDependsOnTheSetAlone : Prop :=
  ∀ (s s' : State) (dev dev' : List Addr), dev.Perm dev' → s.onIdealBus dev → s'.onIdealBus dev' →
    s.ld = s'.ld → s.ldf = s'.ldf → s.rom = s'.rom →
    ∀ k : Nat, (runSearches k s).1 = (runSearches k s').1

/-- R173: after TARGET_FAMILY `f`, with a device of family `f` and no two devices that differ at position 64 only, the
SEARCHes return all devices of family `f` and then all devices after them in the order of R171, which are of other
families; then the terminal flag is set. Without a device of family `f` the first SEARCH returns a device of another
family. -/
def Obligations.FamilySearchReturnsTheFamilyFirst : Prop :=
  ∀ (s u : State) (dev : List Addr) (f : Byte), validDevices dev → dev ≠ [] → s.onIdealBus dev →
    exec (.targetFamily f) s = .next u →
    ((∃ x ∈ dev, x[0] = f) → (∀ x ∈ dev, ∀ y ∈ dev, ¬ differOnlyAt64 x y) →
      ∃ (pre fam post : List Addr) (t : State), (pre ++ fam ++ post).Perm dev ∧
        (pre ++ fam ++ post).Pairwise searchBefore ∧ fam ≠ [] ∧ (∀ x ∈ fam, x[0] = f) ∧
        (∀ x ∈ pre ++ post, x[0] ≠ f) ∧
        runSearches (fam.length + post.length) u = ((fam ++ post).map fun x => 0x00 :: x.toList, t) ∧ t.ldf = true) ∧
    ((∀ x ∈ dev, x[0] ≠ f) →
      ∃ t : State, exec .search u = .next t ∧ t.rom ∈ dev ∧ t.rom[0] ≠ f ∧ t.response = some (0x00 :: t.rom.toList))

/-- R174: of two devices that differ only at position 64, the one with 0 there, if it is the first device of family `f`,
is skipped by a family search: the first SEARCH returns the other one and no later SEARCH returns it. -/
def Obligations.FamilySearchSkipsAtPosition64 : Prop :=
  ∀ (s u : State) (dev : List Addr) (f : Byte) (x0 x1 : Addr), validDevices dev → s.onIdealBus dev →
    x0 ∈ dev → x1 ∈ dev → differOnlyAt64 x0 x1 → addrBit x0 64 = false → x0[0] = f →
    (∀ y ∈ dev, y[0] = f → y = x0 ∨ searchBefore x0 y) → exec (.targetFamily f) s = .next u →
    (∃ t : State, exec .search u = .next t ∧ t.response = some (0x00 :: x1.toList)) ∧
    ∀ k : Nat, 0x00 :: x0.toList ∉ (runSearches k u).1

/-- R99 (DISCOVER), R170, and log entry 20 (the bound on the loop is the model's choice): from any state, on the ideal bus, DISCOVER lists every device exactly once, in the order of
R171, for every bound above the number of devices. -/
def Obligations.DiscoverListsEveryDevice : Prop :=
  ∀ (s : State) (dev : List Addr), validDevices dev → s.onIdealBus dev →
    ∃ (order : List Addr) (t : State), order.Perm dev ∧ order.Pairwise searchBefore ∧
      ∀ limit : Nat, dev.length < limit → discover limit s = (order.map (·.toList), t) ∧ t.found = false

/-- R125, R99: CHECK_SCRATCHPAD accepts a nine-byte record exactly when the CRC8 of all nine bytes is 0, and leaves the
block's registers and the bus as they are. -/
def Obligations.ScratchpadCheckIsAZeroResidue : Prop :=
  ∀ (record : Vector Byte 9) (s : State),
    ((checkScratchpad record s).1 = true ↔ crc8 record.toList = 0x00) ∧
    (checkScratchpad record s).2 = { s with response := (checkScratchpad record s).2.response }
end

