-- ==== Sys2Proof/Laws/State.lean ====
section
/-! SUPPORT. One lemma for each field under each update of the state, so that no later proof unfolds an update. -/

namespace Sys2Proof.Machine

variable (s : State)

@[simp] theorem State.setPort_ld (port : Port) : (s.setPort port).ld = s.ld := rfl
@[simp] theorem State.setPort_lfd (port : Port) : (s.setPort port).lfd = s.lfd := rfl
@[simp] theorem State.setPort_ldf (port : Port) : (s.setPort port).ldf = s.ldf := rfl
@[simp] theorem State.setPort_rom (port : Port) : (s.setPort port).rom = s.rom := rfl
@[simp] theorem State.setPort_port (port : Port) : (s.setPort port).port = port := rfl
@[simp] theorem State.setPort_response (port : Port) : (s.setPort port).response = s.response := rfl
@[simp] theorem State.setPort_inputs (port : Port) : (s.setPort port).inputs = s.inputs := rfl

variable (ld : Position) (lfd : FamilyPosition) (ldf : Bool)

@[simp] theorem State.setSearch_ld : (s.setSearch ld lfd ldf).ld = ld := rfl
@[simp] theorem State.setSearch_lfd : (s.setSearch ld lfd ldf).lfd = lfd := rfl
@[simp] theorem State.setSearch_ldf : (s.setSearch ld lfd ldf).ldf = ldf := rfl
@[simp] theorem State.setSearch_rom : (s.setSearch ld lfd ldf).rom = s.rom := rfl
@[simp] theorem State.setSearch_port : (s.setSearch ld lfd ldf).port = s.port := rfl
@[simp] theorem State.setSearch_response : (s.setSearch ld lfd ldf).response = s.response := rfl
@[simp] theorem State.setSearch_inputs : (s.setSearch ld lfd ldf).inputs = s.inputs := rfl

@[simp] theorem State.setRom_ld (rom : Addr) : (s.setRom rom).ld = s.ld := rfl
@[simp] theorem State.setRom_lfd (rom : Addr) : (s.setRom rom).lfd = s.lfd := rfl
@[simp] theorem State.setRom_ldf (rom : Addr) : (s.setRom rom).ldf = s.ldf := rfl
@[simp] theorem State.setRom_rom (rom : Addr) : (s.setRom rom).rom = rom := rfl
@[simp] theorem State.setRom_port (rom : Addr) : (s.setRom rom).port = s.port := rfl
@[simp] theorem State.setRom_response (rom : Addr) : (s.setRom rom).response = s.response := rfl
@[simp] theorem State.setRom_inputs (rom : Addr) : (s.setRom rom).inputs = s.inputs := rfl

@[simp] theorem State.setInputs_ld (inputs : List Input) : (s.setInputs inputs).ld = s.ld := rfl
@[simp] theorem State.setInputs_lfd (inputs : List Input) : (s.setInputs inputs).lfd = s.lfd := rfl
@[simp] theorem State.setInputs_ldf (inputs : List Input) : (s.setInputs inputs).ldf = s.ldf := rfl
@[simp] theorem State.setInputs_rom (inputs : List Input) : (s.setInputs inputs).rom = s.rom := rfl
@[simp] theorem State.setInputs_port (inputs : List Input) : (s.setInputs inputs).port = s.port := rfl
@[simp] theorem State.setInputs_response (inputs : List Input) : (s.setInputs inputs).response = s.response := rfl
@[simp] theorem State.setInputs_inputs (inputs : List Input) : (s.setInputs inputs).inputs = inputs := rfl

@[simp] theorem State.clearResponse_ld : s.clearResponse.ld = s.ld := rfl
@[simp] theorem State.clearResponse_lfd : s.clearResponse.lfd = s.lfd := rfl
@[simp] theorem State.clearResponse_ldf : s.clearResponse.ldf = s.ldf := rfl
@[simp] theorem State.clearResponse_rom : s.clearResponse.rom = s.rom := rfl
@[simp] theorem State.clearResponse_port : s.clearResponse.port = s.port := rfl
@[simp] theorem State.clearResponse_response : s.clearResponse.response = none := rfl
@[simp] theorem State.clearResponse_inputs : s.clearResponse.inputs = s.inputs := rfl

variable (status : Status) (payload : List Byte)

@[simp] theorem State.respond_ld : (s.respond status payload).ld = s.ld := rfl
@[simp] theorem State.respond_lfd : (s.respond status payload).lfd = s.lfd := rfl
@[simp] theorem State.respond_ldf : (s.respond status payload).ldf = s.ldf := rfl
@[simp] theorem State.respond_rom : (s.respond status payload).rom = s.rom := rfl
@[simp] theorem State.respond_port : (s.respond status payload).port = s.port := rfl
@[simp] theorem State.respond_response :
    (s.respond status payload).response = some (status.code :: payload) := rfl
@[simp] theorem State.respond_inputs : (s.respond status payload).inputs = s.inputs := rfl

@[simp] theorem State.respond_statusByte : (s.respond status payload).statusByte = some status.code := rfl
@[simp] theorem State.respond_payload : (s.respond status payload).payload = payload := rfl

@[simp] theorem State.hardwareReset_ld : s.hardwareReset.ld = 0 := rfl
@[simp] theorem State.hardwareReset_lfd : s.hardwareReset.lfd = 0 := rfl
@[simp] theorem State.hardwareReset_ldf : s.hardwareReset.ldf = false := rfl
@[simp] theorem State.hardwareReset_rom : s.hardwareReset.rom = zeroAddr := rfl
@[simp] theorem State.hardwareReset_port :
    s.hardwareReset.port = { s.port with mode := .command } := rfl
@[simp] theorem State.hardwareReset_response : s.hardwareReset.response = none := rfl
@[simp] theorem State.hardwareReset_inputs : s.hardwareReset.inputs = s.inputs := rfl

/-- Two states with the same seven fields are the same state. -/
theorem State.eq_of_fields {s t : State} (h1 : s.ld = t.ld) (h2 : s.lfd = t.lfd) (h3 : s.ldf = t.ldf)
    (h4 : s.rom = t.rom) (h5 : s.port = t.port) (h6 : s.response = t.response) (h7 : s.inputs = t.inputs) : s = t := by
  cases s; cases t; simp_all

/-- A status is `OK` exactly when its code is 0x00. -/
theorem Status.code_eq_ok (status : Status) : status.code = Status.ok.code ↔ status = .ok := by
  cases status <;> decide

/-- No two statuses share a code. -/
theorem Status.code_injective {a b : Status} (h : a.code = b.code) : a = b := by
  revert h
  cases a <;> cases b <;> decide

end Sys2Proof.Machine
end

