-- ==== Sys2Proof/Laws/Bus.lean ====
section
/-! SUPPORT. What each bus primitive does to the port: it appends exactly one transaction, with the answer it returned,
and leaves the transport in the mode its rule gives. -/

namespace Sys2Proof.Machine

variable (p : Port)

@[simp] theorem Port.busReset_trace : p.busReset.2.trace = p.trace ++ [.reset p.busReset.1] := by
  unfold Port.busReset; split <;> rfl

@[simp] theorem Port.busReset_mode : p.busReset.2.mode = .command := by
  unfold Port.busReset; split <;> rfl

@[simp] theorem Port.busWriteByte_trace (v : Byte) : (p.busWriteByte v).trace = p.trace ++ [.writeByte v] := by
  unfold Port.busWriteByte; split <;> rfl

@[simp] theorem Port.busWriteByte_mode (v : Byte) : (p.busWriteByte v).mode = .data := by
  unfold Port.busWriteByte; split <;> rfl

@[simp] theorem Port.busWriteByte_drawn (v : Byte) : (p.busWriteByte v).drawn = p.drawn := by
  unfold Port.busWriteByte; split <;> rfl

@[simp] theorem Port.busReadBit_trace : p.busReadBit.2.trace = p.trace ++ [.readBit p.busReadBit.1] := by
  unfold Port.busReadBit; split <;> rfl

@[simp] theorem Port.busReadBit_mode : p.busReadBit.2.mode = .command := by
  unfold Port.busReadBit; split <;> rfl

@[simp] theorem Port.busWriteBit_trace (d : Bool) : (p.busWriteBit d).trace = p.trace ++ [.writeBit d] := by
  unfold Port.busWriteBit; split <;> rfl

@[simp] theorem Port.busWriteBit_mode (d : Bool) : (p.busWriteBit d).mode = .command := by
  unfold Port.busWriteBit; split <;> rfl

@[simp] theorem Port.busWriteBit_drawn (d : Bool) : (p.busWriteBit d).drawn = p.drawn := by
  unfold Port.busWriteBit; split <;> rfl

/-- On a scripted line a reset takes the oldest reply. -/
theorem Port.busReset_scripted {r : Reply} {rs : List Reply} (h : p.line = .scripted (r :: rs)) :
    p.busReset = (r.presence,
      { p with mode := .command, line := .scripted rs, trace := p.trace ++ [.reset r.presence] }) := by
  simp [Port.busReset, h]

/-- On a scripted line a read takes the oldest reply. -/
theorem Port.busReadBit_scripted {r : Reply} {rs : List Reply} (h : p.line = .scripted (r :: rs)) :
    p.busReadBit = (r.bit,
      { p with mode := .command, line := .scripted rs, trace := p.trace ++ [.readBit r.bit] }) := by
  simp [Port.busReadBit, h]

/-- A write leaves a scripted line as it is. -/
theorem Port.busWriteByte_scripted {rs : List Reply} (v : Byte) (h : p.line = .scripted rs) :
    (p.busWriteByte v).line = .scripted rs := by
  simp [Port.busWriteByte, h]

/-- A bit write leaves a scripted line as it is. -/
theorem Port.busWriteBit_scripted {rs : List Reply} (d : Bool) (h : p.line = .scripted rs) :
    (p.busWriteBit d).line = .scripted rs := by
  simp [Port.busWriteBit, h]

/-- On the ideal bus presence means that there is a device (R71). -/
theorem Port.busReset_ideal {b : IdealBus} (h : p.line = .ideal b) :
    p.busReset = (!b.dev.isEmpty,
      { p with mode := .command, line := .ideal b.busReset, trace := p.trace ++ [.reset !b.dev.isEmpty] }) := by
  simp [Port.busReset, h]

/-- The search command on the ideal bus (R71). -/
theorem Port.busWriteByte_ideal {b : IdealBus} (v : Byte) (h : p.line = .ideal b) :
    (p.busWriteByte v).line = .ideal (b.busWriteByte v) := by
  simp [Port.busWriteByte, h]

/-- A bit write on the ideal bus (R73). -/
theorem Port.busWriteBit_ideal {b : IdealBus} (d : Bool) (h : p.line = .ideal b) :
    (p.busWriteBit d).line = .ideal (b.busWriteBit d) := by
  simp [Port.busWriteBit, h]

/-- The two reads of a position on the ideal bus: the wired AND of the bits, then of their complements (R72). -/
theorem Port.busReadBit_ideal_bit {b : IdealBus} (h : p.line = .ideal b) (hp : b.phase = .bit) :
    p.busReadBit = (b.wiredAnd false,
      { p with mode := .command, line := .ideal { b with phase := .cmp },
               trace := p.trace ++ [.readBit (b.wiredAnd false)] }) := by
  simp [Port.busReadBit, IdealBus.busReadBit, h, hp]

theorem Port.busReadBit_ideal_cmp {b : IdealBus} (h : p.line = .ideal b) (hp : b.phase = .cmp) :
    p.busReadBit = (b.wiredAnd true,
      { p with mode := .command, line := .ideal { b with phase := .dir },
               trace := p.trace ++ [.readBit (b.wiredAnd true)] }) := by
  simp [Port.busReadBit, IdealBus.busReadBit, h, hp]

@[simp] theorem IdealBus.busReset_dev (b : IdealBus) : b.busReset.dev = b.dev := rfl
@[simp] theorem IdealBus.busReset_part (b : IdealBus) : b.busReset.part = b.dev := rfl

@[simp] theorem IdealBus.busWriteByte_searchRom (b : IdealBus) :
    b.busWriteByte Config.searchRom = { b with pos := 1, phase := .bit } := by
  simp [IdealBus.busWriteByte]

theorem IdealBus.busWriteBit_dir {b : IdealBus} (d : Bool) (hp : b.phase = .dir) :
    b.busWriteBit d =
      { b with part := b.part.filter (fun x => addrBit x b.pos == d), pos := b.pos + 1, phase := .bit } := by
  simp [IdealBus.busWriteBit, hp]

@[simp] theorem IdealBus.busWriteBit_dev (b : IdealBus) (d : Bool) : (b.busWriteBit d).dev = b.dev := by
  unfold IdealBus.busWriteBit; split <;> rfl

@[simp] theorem IdealBus.busReadBit_dev (b : IdealBus) (free : Bool) : (b.busReadBit free).2.dev = b.dev := by
  unfold IdealBus.busReadBit; split <;> rfl

end Sys2Proof.Machine
end

