-- ==== Sys2Proof/Laws/Crc.lean ====
section
/-! SUPPORT. The defining equations of the CRC functions. -/

namespace Sys2Proof.Machine

@[simp] theorem crc8From_nil (crc : Byte) : crc8From crc [] = crc := rfl

@[simp] theorem crc8From_cons (crc v : Byte) (buf : List Byte) :
    crc8From crc (v :: buf) = crc8From (crc8Byte crc v) buf := rfl

theorem crc8From_append (crc : Byte) (a b : List Byte) :
    crc8From crc (a ++ b) = crc8From (crc8From crc a) b := by
  simp [crc8From]

theorem crc8_eq_from (buf : List Byte) : crc8 buf = crc8From 0 buf := rfl

@[simp] theorem crc16_nil (seed : Word16) : crc16 [] seed = seed := rfl

@[simp] theorem crc16_cons (v : Byte) (buf : List Byte) (seed : Word16) :
    crc16 (v :: buf) seed = crc16 buf (crc16Byte seed v) := rfl

@[simp] theorem crc16Parity_nil (seed : Word16) : crc16Parity [] seed = seed := rfl

@[simp] theorem crc16Parity_cons (v : Byte) (buf : List Byte) (seed : Word16) :
    crc16Parity (v :: buf) seed = crc16Parity buf (crc16ParityByte seed v) := rfl

/-- The check accepts exactly the inverted pair (R91, R130). -/
theorem checkCrc16_iff (buf : List Byte) (seed : Word16) (pair0 pair1 : Byte) :
    checkCrc16 buf seed pair0 pair1 = true ↔ invertedPair (crc16 buf seed) = [pair0, pair1] := by
  simp [checkCrc16, invertedPair]

/-- A value is its high byte followed by its low byte (R51). -/
theorem high_append_low (v : Word16) : (highByte v ++ lowByte v : BitVec 16) = v := by
  ext i hi
  simp only [highByte, lowByte, BitVec.getElem_append, BitVec.getElem_setWidth, BitVec.getLsbD_ushiftRight]
  split
  · simp [BitVec.getLsbD_eq_getElem hi]
  · rw [show 8 + (i - 8) = i by omega, BitVec.getLsbD_eq_getElem hi]

end Sys2Proof.Machine
end

