-- ==== Sys2Proof/Laws/Decode.lean ====
section
/-! SUPPORT. Small lemmas about byte order and packets. -/

namespace Sys2Proof

@[simp] theorem length_toBytes (n v : Nat) : (toBytes n v).length = n := by
  induction n generalizing v with
  | zero => rfl
  | succ n ih => simp [toBytes, ih]

/-- Reading the bytes `MemWrite` lays down gives the value back, where it fits (R13, R51). -/
theorem fromBytes_toBytes (n v : Nat) (h : v < 256 ^ n) : fromBytes (toBytes n v) = v := by
  induction n generalizing v with
  | zero => simp at h; simp [toBytes, fromBytes, h]
  | succ n ih =>
    have h' : v / 256 < 256 ^ n := by
      apply Nat.div_lt_of_lt_mul; rw [Nat.pow_succ] at h; omega
    simp only [toBytes, fromBytes, ih _ h', BitVec.toNat_ofNat]
    omega

/-- Two bytes read low byte first (R93). -/
theorem fromBytes_pair (b0 b1 : Byte) : fromBytes [b0, b1] = b0.toNat + 256 * b1.toNat := by simp [fromBytes]

/-- A packet that holds the two bytes at `addr` (R13). -/
theorem memRead_append (pre mid post : Packet) :
    memRead (pre ++ (mid ++ post)) pre.length mid.length = some (fromBytes mid) := by
  simp [memRead]

@[simp] theorem bufferFits_iff (buf : List Byte) : bufferFits buf = true ↔ buf.length < 65536 := by
  simp [bufferFits]

end Sys2Proof
end

