-- ==== Sys2Proof/Laws/Enumerator.lean ====
section
/-! SUPPORT. What one position, one pass and one SEARCH can do, said once. -/

namespace Sys2Proof.Machine

@[simp] theorem scan_nil (ld : Position) (p : Pass) : scan ld [] p = p := rfl

/-- A position that fails ends the pass. -/
theorem scan_cons_fail {ld n : Position} {ns : List Position} {p : Pass} (h : (scanPosition ld n p).ok = false) :
    scan ld (n :: ns) p = scanPosition ld n p := by
  simp [scan, h]

/-- A position that is resolved is followed by the rest of the pass. -/
theorem scan_cons_ok {ld n : Position} {ns : List Position} {p : Pass} (h : (scanPosition ld n p).ok = true) :
    scan ld (n :: ns) p = scan ld ns (scanPosition ld n p) := by
  simp [scan, h]

/-- One position either fails, both sampled bits being 1, or is resolved (R155). -/
theorem scanPosition_cases (ld n : Position) (p : Pass) :
    (p.port.busReadBit.1 = true ∧ p.port.busReadBit.2.busReadBit.1 = true ∧
      scanPosition ld n p = failPosition p p.port.busReadBit.2.busReadBit.2) ∨
    ((p.port.busReadBit.1 && p.port.busReadBit.2.busReadBit.1) = false ∧
      scanPosition ld n p =
        resolvePosition n p.port.busReadBit.1 p.port.busReadBit.2.busReadBit.1
          (direction ld n p.rom p.port.busReadBit.1 p.port.busReadBit.2.busReadBit.1) p
          p.port.busReadBit.2.busReadBit.2) := by
  unfold scanPosition
  cases hb : p.port.busReadBit.1 <;> cases hc : p.port.busReadBit.2.busReadBit.1 <;> simp [hb, hc]

@[simp] theorem failPosition_ok (p : Pass) (port : Port) : (failPosition p port).ok = false := rfl
@[simp] theorem failPosition_rom (p : Pass) (port : Port) : (failPosition p port).rom = p.rom := rfl
@[simp] theorem failPosition_port (p : Pass) (port : Port) : (failPosition p port).port = port := rfl

variable (n : Position) (b c d : Bool) (p : Pass) (port : Port)

@[simp] theorem resolvePosition_ok : (resolvePosition n b c d p port).ok = p.ok := rfl
@[simp] theorem resolvePosition_rom : (resolvePosition n b c d p port).rom = setAddrBit p.rom n d := rfl
@[simp] theorem resolvePosition_port : (resolvePosition n b c d p port).port = port.busWriteBit d := rfl
@[simp] theorem resolvePosition_lastZero :
    (resolvePosition n b c d p port).lastZero = lastZeroAfter (zeroBranch b c d) n p.lastZero := rfl
@[simp] theorem resolvePosition_lfd :
    (resolvePosition n b c d p port).lfd = lfdAfter (zeroBranch b c d) n p.lfd := rfl

/-- The pass of a SEARCH that got a presence pulse (R152, steps 3 and 4). -/
def searchPass (s : State) : Pass :=
  scan s.ld positions (startPass s (s.port.busReset.2.busWriteByte Config.searchRom))

/-- One SEARCH has one of five exits (R152, R194). -/
theorem search_cases (s : State) :
    (s.ldf = true ∧ search s = s.respond .noMoreDevices s.rom.toList) ∨
    (s.ldf = false ∧ s.port.busReset.1 = false ∧
      search s = searchFailure .noPresence (s.setPort s.port.busReset.2)) ∨
    (s.ldf = false ∧ s.port.busReset.1 = true ∧ (searchPass s).ok = false ∧
      search s = searchFailure .noResponse ((s.setRom (searchPass s).rom).setPort (searchPass s).port)) ∨
    (s.ldf = false ∧ s.port.busReset.1 = true ∧ (searchPass s).ok = true ∧ (searchPass s).rom = zeroAddr ∧
      search s = searchFailure .zeroAddress ((s.setRom (searchPass s).rom).setPort (searchPass s).port)) ∨
    (s.ldf = false ∧ s.port.busReset.1 = true ∧ (searchPass s).ok = true ∧ (searchPass s).rom ≠ zeroAddr ∧
      search s =
        (((s.setRom (searchPass s).rom).setPort (searchPass s).port).setSearch (searchPass s).lastZero
          (searchPass s).lfd (ldfAfter (searchPass s).lastZero false)).respond .ok (searchPass s).rom.toList) := by
  cases hl : s.ldf
  · cases hp : s.port.busReset.1
    · simp [search, hl, hp]
    · cases hk : (searchPass s).ok
      · simp [search, finishPass, hl, hp, hk, ← searchPass.eq_def]
      · by_cases hz : (searchPass s).rom = zeroAddr
        · simp [search, finishPass, hl, hp, hk, hz, ← searchPass.eq_def, searchFailure]
          rfl
        · simp [search, finishPass, hl, hp, hk, hz, ← searchPass.eq_def]
  · simp [search, hl]

end Sys2Proof.Machine
end

