-- ==== Sys2Proof/Laws/PerInstr.lean ====
section
/-! SUPPORT. Statements about every command as syntax, one lemma a constructor. EncodedLength: the packet of a
well-formed command has the length its opcode and its `len` field imply (30_encoding.md R92). -/

namespace Sys2Proof.Laws.EncodedLength

/-- The encoded packet's length is the implied length (R92). -/
def Statement (i : Instr) : Prop := i.wellFormed = true → impliedLength (encode i) = some (encode i).length

theorem lenField (pre post : Packet) (len : Nat) (h : len < 65536) :
    memRead (pre ++ (toBytes 2 len ++ post)) pre.length 2 = some len := by
  have := memRead_append pre (toBytes 2 len) post
  rw [length_toBytes, fromBytes_toBytes 2 len (by omega)] at this
  exact this

theorem crc8 (buf : List Byte) : Statement (.crc8 buf) := by
  intro h
  have h' : buf.length < 65536 := by simpa [Instr.wellFormed] using h
  have := lenField [0x01] buf buf.length h'
  simp_all [impliedLength, encode, opcodeFormat, formatLength]
  omega

theorem crc16 (seed : Word16) (buf : List Byte) : Statement (.crc16 seed buf) := by
  intro h
  have h' : buf.length < 65536 := by simpa [Instr.wellFormed] using h
  have := lenField (0x02 :: toBytes 2 seed.toNat) buf buf.length h'
  simp_all [impliedLength, encode, opcodeFormat, formatLength]
  omega

theorem checkCrc16 (seed : Word16) (buf : List Byte) (pair0 pair1 : Byte) :
    Statement (.checkCrc16 seed buf pair0 pair1) := by
  intro h
  have h' : buf.length < 65536 := by simpa [Instr.wellFormed] using h
  have := lenField (0x03 :: toBytes 2 seed.toNat) (buf ++ [pair0, pair1]) buf.length h'
  simp_all [impliedLength, encode, opcodeFormat, formatLength]
  omega

theorem checkAddr (addr : Addr) : Statement (.checkAddr addr) := by
  intro _; simp [impliedLength, encode, opcodeFormat, formatLength]

theorem search : Statement .search := by intro _; rfl

theorem resetSearch : Statement .resetSearch := by intro _; rfl

theorem targetFamily (family : Byte) : Statement (.targetFamily family) := by intro _; rfl

theorem getState : Statement .getState := by intro _; rfl

end Sys2Proof.Laws.EncodedLength
end

