-- ==== Sys2Proof/Laws/Step.lean ====
section
/-! SUPPORT. What one step does for each input, said once. -/

namespace Sys2Proof.Machine

theorem step_idle {s : State} (h : s.inputs = []) : step s = .next s := by simp [step, h]

theorem step_packet {s : State} {p : Packet} {rest : List Input} (h : s.inputs = .packet p :: rest) :
    step s = runPacket p (s.setInputs rest) := by simp [step, h]

theorem step_hardwareReset {s : State} {rest : List Input} (h : s.inputs = .hardwareReset :: rest) :
    step s = .next (s.setInputs rest).hardwareReset := by simp [step, h]

theorem step_resetDuring {s : State} {p : Packet} {k : Nat} {rest : List Input}
    (h : s.inputs = .resetDuring p k :: rest) : step s = abandonPacket p k (s.setInputs rest) := by simp [step, h]

theorem step_environment {s : State} {mode : TransportMode} {line : Line} {rest : List Input}
    (h : s.inputs = .environment mode line :: rest) :
    step s = .next (changeEnvironment mode line (s.setInputs rest)) := by simp [step, h]

theorem runPacket_ok {p : Packet} {i : Instr} (s : State) (h : decode p = .ok i) : runPacket p s = exec i s := by
  simp [runPacket, h]

theorem runPacket_reject {p : Packet} {r : Reject} (s : State) (h : decode p = .error r) :
    runPacket p s = .next (s.reject r) := by
  simp [runPacket, h]

/-- No command ends in a fault or a refusal: the next state of each. -/
theorem exec_next (i : Instr) (s : State) : ∃ t, exec i s = .next t := by
  cases i <;> exact ⟨_, rfl⟩

/-- A packet always has a next state. -/
theorem runPacket_next (p : Packet) (s : State) : ∃ t, runPacket p s = .next t := by
  cases h : decode p with
  | ok i => rw [runPacket_ok s h]; exact exec_next i s
  | error r => exact ⟨_, runPacket_reject s h⟩

/-- What a step that answers a next state can have been. -/
theorem step_cases {s t : State} (h : step s = .next t) :
    (s.inputs = [] ∧ t = s) ∨
    (∃ p rest, s.inputs = .packet p :: rest ∧ runPacket p (s.setInputs rest) = .next t) ∨
    (∃ rest, s.inputs = .hardwareReset :: rest ∧ t = (s.setInputs rest).hardwareReset) ∨
    (∃ p k rest, s.inputs = .resetDuring p k :: rest ∧ abandonPacket p k (s.setInputs rest) = .next t) ∨
    (∃ mode line rest, s.inputs = .environment mode line :: rest ∧
      t = changeEnvironment mode line (s.setInputs rest)) := by
  unfold step at h
  split at h
  · exact .inl ⟨‹_›, by simpa using h.symm⟩
  · exact .inr (.inl ⟨_, _, ‹_›, h⟩)
  · exact .inr (.inr (.inl ⟨_, ‹_›, by simpa using h.symm⟩))
  · exact .inr (.inr (.inr (.inl ⟨_, _, _, ‹_›, h⟩)))
  · exact .inr (.inr (.inr (.inr ⟨_, _, _, ‹_›, by simpa using h.symm⟩)))

/-- A command abandoned by a hardware reset leaves the registers of the reset state and no response. -/
theorem abandonPacket_next (p : Packet) (k : Nat) (s : State) :
    ∃ port, abandonPacket p k s = .next (s.setPort port).hardwareReset := by
  obtain ⟨t, ht⟩ := runPacket_next p s
  exact ⟨_, by rw [abandonPacket, ht]⟩

end Sys2Proof.Machine
end

