-- ==== Sys2Proof/Tests/Slice0.lean ====
section
/-! SUPPORT. The model's own tests: the well-formedness smoke, packets written out from 30_encoding.md R92 and R94,
single steps against the vectors of spec/95_test_vectors.md (each test names its vector), and for each statement of
Certificates/Slice0/Obligations.lean with hypotheses a witness that meets them. -/

namespace Sys2Proof.Tests

open Sys2Proof.Machine

/-! ## Well-formedness -/

theorem bufferFits_replicate (n : Nat) (v : Byte) : bufferFits (List.replicate n v) = decide (n < 65536) := by
  simp [bufferFits]

theorem test_crc8_buffer_too_long : (Instr.crc8 (List.replicate 65536 0)).wellFormed = false :=
  (bufferFits_replicate 65536 0).trans (by decide)

theorem test_crc8_buffer_longest : (Instr.crc8 (List.replicate 65535 0)).wellFormed = true :=
  (bufferFits_replicate 65535 0).trans (by decide)

theorem test_crc16_buffer_too_long : (Instr.crc16 0 (List.replicate 65536 0)).wellFormed = false :=
  (bufferFits_replicate 65536 0).trans (by decide)

theorem test_checkCrc16_buffer_too_long : (Instr.checkCrc16 0 (List.replicate 65536 0) 0 0).wellFormed = false :=
  (bufferFits_replicate 65536 0).trans (by decide)

/-! ## Decoding, one packet a constructor, written out from R92 and R94 -/

/-- K-2's packet. -/
theorem test_decode_crc8 : decode [0x01, 0x07, 0x00, 0x02, 0x1C, 0xB8, 0x01, 0x00, 0x00, 0x00] =
    .ok (.crc8 [0x02, 0x1C, 0xB8, 0x01, 0x00, 0x00, 0x00]) := by rfl

/-- L-3's packet: the seed is 0x14BA. -/
theorem test_decode_crc16 : decode [0x02, 0xBA, 0x14, 0x05, 0x00, 0x35, 0x36, 0x37, 0x38, 0x39] =
    .ok (.crc16 0x14BA [0x35, 0x36, 0x37, 0x38, 0x39]) := by rfl

/-- H-7's packet. -/
theorem test_decode_checkCrc16 :
    decode [0x03, 0xBA, 0x14, 0x05, 0x00, 0x35, 0x36, 0x37, 0x38, 0x39, 0xC2, 0x44] =
    .ok (.checkCrc16 0x14BA [0x35, 0x36, 0x37, 0x38, 0x39] 0xC2 0x44) := by rfl

/-- A-1's packet. -/
theorem test_decode_checkAddr : decode [0x04, 0x02, 0x1C, 0xB8, 0x01, 0x00, 0x00, 0x00, 0xA2] =
    .ok (.checkAddr #v[0x02, 0x1C, 0xB8, 0x01, 0x00, 0x00, 0x00, 0xA2]) := by rfl

theorem test_decode_search : decode [0x10] = .ok .search := by rfl
theorem test_decode_resetSearch : decode [0x11] = .ok .resetSearch := by rfl
theorem test_decode_targetFamily : decode [0x12, 0x28] = .ok (.targetFamily 0x28) := by rfl
theorem test_decode_getState : decode [0x13] = .ok .getState := by rfl

/-- X-1, X-3, X-4: illegal opcodes around the defined groups. -/
theorem test_decode_illegal : decode [0x00] = .error .illegal ∧ decode [0x0F] = .error .illegal ∧
    decode [0x14] = .error .illegal := by decide

/-- X-6, X-8, X-11, X-14, X-17: wrong lengths; and the empty packet. -/
theorem test_decode_malformed : decode [0x10, 0x00] = .error .malformed ∧ decode [0x12] = .error .malformed ∧
    decode [0x01] = .error .malformed ∧ decode [0x02, 0x00, 0x00, 0x01, 0x00] = .error .malformed ∧
    decode [0x03, 0x00, 0x00, 0x00, 0x00, 0xFF] = .error .malformed ∧ decode [] = .error .malformed := by decide

/-- A table word is completed with zero operand bytes up to its implied length. -/
theorem test_tableWord : decodeTableWord 8 0x01 = some (.crc8 []) ∧
    decodeTableWord 8 0x03 = some (.checkCrc16 0 [] 0 0) ∧ decodeTableWord 8 0x04 = some (.checkAddr zeroAddr) ∧
    decodeTableWord 8 0x05 = none := by decide

/-- SEARCH is run as the first command after reset. -/
theorem test_first_command : step (State.reset.withFetchWord 8 0x10) = exec .search State.reset := by rfl

/-! ## Single steps -/

/-- The packet is handed over and one step is taken; the response after it. -/
def respondsTo (s : State) (p : Packet) : Option Packet :=
  match step (placePacket p s) with
  | .next t => t.response
  | .fault _ => none
  | .refused _ => none

/-- A state with these registers on this line. -/
def onLine (line : Line) (ld : Position) (lfd : FamilyPosition) (ldf : Bool) (rom : Addr) : State :=
  { State.reset with
    ld := ld, lfd := lfd, ldf := ldf, rom := rom, port := { State.reset.port with line := line } }

/-- An ideal bus with these devices. -/
def idealLine (dev : List Addr) : Line := .ideal { dev := dev, part := [], pos := 0, phase := .bit }

/-- Presence, then these read answers (R69). -/
def scriptedLine (bits : List Bool) : Line := .scripted (.answer true :: bits.map Reply.answer)

/-- The devices of spec/95_test_vectors.md. -/
def d1 : Addr := #v[0x28, 0xFF, 0x64, 0x1E, 0x0F, 0x00, 0x00, 0x34]
def d2 : Addr := #v[0x10, 0xA1, 0xB2, 0xC3, 0x00, 0x08, 0x00, 0x9B]
def d3 : Addr := #v[0x1D, 0x5C, 0x2B, 0x00, 0x00, 0x00, 0x00, 0x18]
def d4 : Addr := #v[0x28, 0x7A, 0x11, 0x02, 0x0F, 0x00, 0x00, 0xA0]
def x0 : Addr := #v[0x28, 0x01, 0x02, 0x03, 0x04, 0x05, 0x06, 0x00]
def x1 : Addr := #v[0x28, 0x01, 0x02, 0x03, 0x04, 0x05, 0x06, 0x80]

def allFour : List Addr := [d1, d2, d3, d4]

/-- The reset registers on the ideal bus with D1 to D4, and the states after E-1 and E-2. -/
def fresh : State := onLine (idealLine allFour) 0 0 false zeroAddr
def afterE1 : State := onLine (idealLine allFour) 4 4 false d2
def afterE2 : State := onLine (idealLine allFour) 9 1 false d4

/-- K-1. -/
theorem test_crc8_check_value :
    respondsTo State.reset [0x01, 9, 0, 0x31, 0x32, 0x33, 0x34, 0x35, 0x36, 0x37, 0x38, 0x39] =
      some [0x00, 0xA1] := by decide +kernel

/-- K-8: one bit, the reflected generator. -/
theorem test_crc8_generator : respondsTo State.reset [0x01, 1, 0, 0x80] = some [0x00, 0x8C] := by decide +kernel

/-- L-1. -/
theorem test_crc16_check_value :
    respondsTo State.reset [0x02, 0, 0, 9, 0, 0x31, 0x32, 0x33, 0x34, 0x35, 0x36, 0x37, 0x38, 0x39] =
      some [0x00, 0x3D, 0xBB] := by decide +kernel

/-- L-10: a seed. -/
theorem test_crc16_seed : respondsTo State.reset [0x02, 0xFF, 0xFF, 1, 0, 0] = some [0x00, 0xBF, 0x40] := by
  decide +kernel

/-- H-1. -/
theorem test_checkCrc16_accepts :
    respondsTo State.reset [0x03, 0, 0, 9, 0, 0x31, 0x32, 0x33, 0x34, 0x35, 0x36, 0x37, 0x38, 0x39, 0xC2, 0x44] =
      some [0x00, 0x01] := by decide +kernel

/-- H-2: the pair in high, low order. -/
theorem test_checkCrc16_rejects_swapped_pair :
    respondsTo State.reset [0x03, 0, 0, 9, 0, 0x31, 0x32, 0x33, 0x34, 0x35, 0x36, 0x37, 0x38, 0x39, 0x44, 0xC2] =
      some [0x00, 0x00] := by decide +kernel

/-- A-6. -/
theorem test_checkAddr_accepts :
    respondsTo State.reset [0x04, 0x10, 0xA1, 0xB2, 0xC3, 0, 8, 0, 0x9B] = some [0x00, 0x01] := by decide +kernel

/-- A-9. -/
theorem test_checkAddr_rejects :
    respondsTo State.reset [0x04, 0x28, 1, 2, 3, 4, 5, 6, 0] = some [0x00, 0x00] := by decide +kernel

/-- E-2: repeat at 1, the 1-branch at `LD` = 4, the 0-branch at 9. -/
theorem test_search_second_pass :
    (search afterE1).rom = d4 ∧ (search afterE1).ld = 9 ∧ (search afterE1).lfd = 1 ∧
      (search afterE1).response = some (0x00 :: d4.toList) := by decide +kernel

/-- O-4b: repeats below `LD` = 3, 1 at `LD`, 0 after; the answers are all 0. -/
theorem test_search_stuck_line :
    (search (onLine (scriptedLine (List.replicate 128 false)) 3 3 false #v[1, 0, 0, 0, 0, 0, 0, 0])).response =
      some [0x00, 0x05, 0, 0, 0, 0, 0, 0, 0] := by decide +kernel

/-- E-11a. -/
theorem test_resetSearch : respondsTo afterE2 [0x11] = some [0x00] ∧
    (hostCommand .resetSearch afterE2).rom = zeroAddr := by decide +kernel

/-- E-20a. -/
theorem test_targetFamily : (hostCommand (.targetFamily 0x28) afterE2).ld = 64 ∧
    (hostCommand (.targetFamily 0x28) afterE2).rom = #v[0x28, 0, 0, 0, 0, 0, 0, 0] := by decide +kernel

/-- E-6's format in the state after E-2. -/
theorem test_getState : respondsTo afterE2 [0x13] =
    some [0x00, 0x09, 0x01, 0x00, 0x28, 0x7A, 0x11, 0x02, 0x0F, 0x00, 0x00, 0xA0] := by decide +kernel

/-- X-5 and X-10. -/
theorem test_rejected_packets : respondsTo afterE2 [0xFF] = some [0xFF] ∧ respondsTo afterE2 [0x13, 0x01] = some [0xFE] := by
  decide +kernel

/-- P-1, line 3, as R98 writes it. -/
theorem test_asm : Instr.asm (.checkCrc16 0x14BA [0x35, 0x36] 0xC2 0x44) =
    "CHECK_CRC16 0x14BA, [35 36], [C2 44]".toList := by decide +kernel

/-! ## Witnesses: the hypotheses of each statement can be met -/

/-- A state whose next input is this one. -/
def withInput (x : Input) : State := { afterE2 with inputs := [x] }

theorem witness_DecodeOfEncodeIsTheCommand : (Instr.crc16 0x14BA [0x35]).wellFormed = true := by decide

theorem witness_EncodeOfDecodeIsThePacket : decode [0x12, 0x00] = .ok (.targetFamily 0x00) := by rfl

theorem witness_OtherPacketsAreAnsweredByAStatus_illegal :
    (withInput (.packet [0x05, 0x00])).inputs = [.packet [0x05, 0x00]] ∧ decode [0x05, 0x00] = .error .illegal := by
  decide +kernel

theorem witness_OtherPacketsAreAnsweredByAStatus_malformed :
    (withInput (.packet [0x01])).inputs = [.packet [0x01]] ∧ decode [0x01] = .error .malformed := by decide +kernel

theorem witness_FieldsStandAtTheirOffsets :
    ([] : List Byte).length = (0x00#8 ++ 0x00#8 : BitVec 16).toNat ∧
    ([0x31, 0x32] : List Byte).length = (0x00#8 ++ 0x02#8 : BitVec 16).toNat ∧
    (List.replicate 256 0x00 : List Byte).length = (0x01#8 ++ 0x00#8 : BitVec 16).toNat := by decide +kernel

theorem witness_StepRunsTheDecodedCommand :
    (withInput (.packet [0x11])).inputs = [.packet [0x11]] ∧ decode [0x11] = .ok .resetSearch := ⟨rfl, rfl⟩

theorem witness_TableWordIsTheNextCommand : decodeTableWord 8 0x02 = some (.crc16 0 []) := by decide

theorem witness_IdleBlockStaysAsItIs : State.reset.inputs = [] := rfl

theorem witness_HardwareResetLeavesTheResetState :
    (withInput .hardwareReset).inputs = [.hardwareReset] := rfl

theorem witness_ResetDuringACommandAbandonsIt :
    (withInput (.resetDuring [0x10] 100)).inputs = [.resetDuring [0x10] 100] ∧
    ∃ u, runPacket [0x10] { withInput (.resetDuring [0x10] 100) with inputs := [] } = .next u :=
  ⟨rfl, runPacket_next _ _⟩

theorem witness_EnvironmentChangeTouchesNoRegister :
    (withInput (.environment .data (idealLine []))).inputs = [.environment .data (idealLine [])] := rfl

theorem witness_PropertiesOfCrc8 : ([0x01, 0x02] : List Byte).length = ([0x03, 0x04] : List Byte).length ∧
    1 < ([0x01, 0x02] : List Byte).length ∧ 7 < 8 := by decide

theorem witness_PropertiesOfCrc16 : ([] : List Byte).length = ([] : List Byte).length ∧
    0 < ([0x01] : List Byte).length ∧ 0 < 8 := by decide

/-- H-8: the empty buffer with seed 0, and H-1. -/
theorem witness_CheckCrc16AcceptsItsPairAndRejectsBitFlips :
    (0xFF#8 ++ 0xFF#8 : BitVec 16) = ~~~(crc16 [] 0) ∧
    (0x44#8 ++ 0xC2#8 : BitVec 16) = ~~~(crc16 [0x31, 0x32, 0x33, 0x34, 0x35, 0x36, 0x37, 0x38, 0x39] 0) := by
  decide +kernel

theorem witness_CrcFamilyIsStateless :
    (∃ a, Instr.checkAddr d1 = .checkAddr a) ∧ (∃ t, exec (.checkAddr d1) fresh = .next t) ∧
    ∃ t, exec (.checkAddr d1) afterE2 = .next t := ⟨⟨_, rfl⟩, exec_next _ _, exec_next _ _⟩

theorem witness_GetStateImageDeterminesTheRegisters :
    ∃ t t', exec .getState fresh = .next t ∧ exec .getState State.reset = .next t' ∧ t.response = t'.response :=
  ⟨_, _, rfl, rfl, by decide +kernel⟩

theorem witness_OnlySearchUsesTheBus : Instr.getState ≠ .search ∧ ∃ t, exec .getState afterE2 = .next t :=
  ⟨by decide, exec_next _ _⟩

theorem witness_OnlyGetStateReadsLfd : Instr.search ≠ .getState ∧ (∃ t, exec .search afterE2 = .next t) ∧
    ∃ u, exec .search { afterE2 with lfd := 8 } = .next u := ⟨by decide, exec_next _ _, exec_next _ _⟩

theorem witness_SetRomBitWritesOneBit : (0 : Position) < 1 ∧ (0 : Position) < 64 := by decide

theorem witness_TerminalFlagIsSticky : (onLine (idealLine allFour) 0 1 true d3).ldf = true := rfl

theorem witness_NoPresenceAbandonsTheEnumeration :
    (onLine (.scripted [.timeout]) 9 1 false d4).ldf = false ∧
    (onLine (.scripted [.timeout]) 9 1 false d4).port.busReset.1 = false := by decide +kernel

/-- E-1. -/
theorem witness_SearchOkFollowsTheAnswers :
    exec .search fresh = .next (search fresh) ∧ (search fresh).statusByte = some 0x00 ∧ (search fresh).rom = d2 :=
  ⟨rfl, by decide +kernel, by decide +kernel⟩

/-- O-4b: `LFD` is written at position 8, the last of the family byte, and `LD` ends at 64, the last position. -/
theorem witness_SearchOkFollowsTheAnswers_boundaries :
    (search (onLine (scriptedLine (List.replicate 128 false)) 3 3 false #v[1, 0, 0, 0, 0, 0, 0, 0])).lfd = 8 ∧
    (search (onLine (scriptedLine (List.replicate 128 false)) 3 3 false #v[1, 0, 0, 0, 0, 0, 0, 0])).ld = 64 := by
  decide +kernel

/-- E-4: no 0-branch is taken, so `LFD` stays 1 and `LDF` is set. -/
theorem witness_SearchOkFollowsTheAnswers_noZero :
    (search (onLine (idealLine allFour) 1 1 false d1)).statusByte = some 0x00 ∧
    (search (onLine (idealLine allFour) 1 1 false d1)).lfd = 1 ∧
    (search (onLine (idealLine allFour) 1 1 false d1)).ldf = true := by decide +kernel

/-- The states of O-2 (the first position fails), O-10 (the last one does) and O-1. -/
def failsFirst : State := onLine (scriptedLine [true, true]) 9 1 false d4
def failsLast : State :=
  onLine (scriptedLine ((List.replicate 63 [true, false]).flatten ++ [true, true])) 0 0 false zeroAddr
def endsZero : State := onLine (scriptedLine (List.replicate 128 false)) 0 0 false zeroAddr

theorem witness_SearchNoResponseKeepsTheRest :
    exec .search failsFirst = .next (search failsFirst) ∧ exec .search failsLast = .next (search failsLast) ∧
    (search failsFirst).response = some (0x03 :: d4.toList) ∧
    (search failsLast).response = some [0x03, 0xFF, 0xFF, 0xFF, 0xFF, 0xFF, 0xFF, 0xFF, 0x7F] :=
  ⟨rfl, rfl, by decide +kernel, by decide +kernel⟩

theorem witness_SearchZeroAddressIsAFailure :
    exec .search endsZero = .next (search endsZero) ∧ (search endsZero).statusByte = some 0x04 :=
  ⟨rfl, by decide +kernel⟩

/-- The answers of O-5a: 1, 0 at every position. -/
def goodPairs : List (Bool × Bool) := List.replicate 64 (true, false)
def goodState : State :=
  onLine (.scripted (.answer true :: (goodPairs.flatMap fun x => [.answer x.1, .answer x.2]) ++ [.timeout])) 0 0 false zeroAddr

theorem witness_SearchCompletesOnEveryAnswerSequence :
    goodState.ldf = false ∧ goodPairs.length = 64 ∧ (∀ x ∈ goodPairs, x ≠ (true, true)) ∧
    (true, false) ∈ goodPairs ∧
    goodState.port.line =
      .scripted (.answer true :: (goodPairs.flatMap fun x => [.answer x.1, .answer x.2]) ++ [.timeout]) :=
  ⟨by decide +kernel, by decide +kernel, by decide +kernel, by decide +kernel, by rw [goodState, onLine]⟩

theorem witness_TimedOutRepliesReadAsZero :
    (∃ t, exec .search { fresh with port := { fresh.port with line := .scripted [.answer true, .timeout] } } = .next t) ∧
    ∃ u, exec .search { fresh with port := { fresh.port with
      line := .scripted ([.answer true, .timeout].map Reply.defaulted) } } = .next u :=
  ⟨exec_next _ _, exec_next _ _⟩

theorem witness_RomIsNotReadWhileLdIsZero : fresh.ld = 0 ∧ fresh.ldf = false ∧
    exec .search fresh = .next (search fresh) ∧ (search fresh).statusByte = some 0x00 ∧
    exec .search { fresh with rom := d4 } = .next (search { fresh with rom := d4 }) :=
  ⟨rfl, rfl, rfl, by decide +kernel, rfl⟩

theorem witness_InvariantsOfTheIdleBlock : afterE2.idleInv ∧ (∃ t, step afterE2 = .next t) ∧
    (search (onLine (idealLine []) 9 1 false d4)).statusByte = some 0x02 :=
  ⟨by decide +kernel, ⟨_, rfl⟩, by decide +kernel⟩

/-- The reset registers on a line stuck at 0 (O-1). -/
def stuckState : State := onLine (.scripted (.answer true :: List.replicate 128 (.answer false) ++ [])) 0 0 false zeroAddr

theorem witness_StuckLineFromResetAndAfterASeed :
    stuckState.port.line = .scripted (.answer true :: List.replicate 128 (.answer false) ++ []) ∧
    stuckState.searchReset ∧ ∃ u, exec (.targetFamily 0x28) stuckState = .next u :=
  ⟨by rw [stuckState, onLine], by decide +kernel, exec_next _ _⟩

theorem witness_ReplyBytesGiveOneBit :
    (onLine (.scripted [.uart 0 0xCD]) 0 0 false zeroAddr).port.line = .scripted [.uart 0 0xCD] := rfl

theorem witness_UartBytesOfAPass : [((true, false, true) : BitTriple)] ≠ [] ∧ fresh.ldf = false ∧
    ∃ t, exec .search fresh = .next t := ⟨by decide, rfl, exec_next _ _⟩

theorem witness_IdealBusReadsAreWiredAnds :
    ({ dev := allFour, part := allFour, pos := 4, phase := .bit } : IdealBus).phase = .bit := rfl

theorem valid_allFour : validDevices allFour := by decide +kernel

theorem valid_pair : validDevices [x0, x1] := by decide +kernel

theorem agree_pair : agreeBelow x0 x1 64 := by decide +kernel

/-- The state after E-26a: X0 was returned and the enumeration resumes at position 64, the last one. -/
def afterE26 : State := onLine (idealLine [x0, x1]) 64 0 false x0

theorem witness_PassReturnsADeviceAndResumes : validDevices [x0, x1] ∧ [x0, x1] ≠ [] ∧ afterE26.onIdealBus [x0, x1] ∧
    afterE26.ldf = false ∧ afterE26.rom ∈ [x0, x1] ∧ afterE26.ld ≠ 0 ∧ resumesAt [x0, x1] afterE26.rom afterE26.ld :=
  ⟨valid_pair, by simp, ⟨_, rfl, rfl⟩, rfl, by simp [afterE26, onLine], by decide,
   .inr ⟨by decide, by decide +kernel, x1, by simp, agree_pair, by decide +kernel⟩,
   fun n hn => absurd (show (64 : Nat) < n.val from hn) (by omega)⟩

theorem witness_EnumerationReturnsEveryDeviceOnce : validDevices allFour ∧ allFour ≠ [] ∧ fresh.onIdealBus allFour ∧
    fresh.searchReset ∧ (onLine (idealLine []) 0 0 false zeroAddr).onIdealBus [] :=
  ⟨valid_allFour, by decide, ⟨_, rfl, rfl⟩, ⟨rfl, rfl, rfl, rfl⟩, ⟨_, rfl, rfl⟩⟩

theorem witness_EnumerationOrderDependsOnTheSetAlone : allFour.Perm [d4, d3, d2, d1] ∧ fresh.onIdealBus allFour ∧
    (onLine (idealLine [d4, d3, d2, d1]) 0 0 false zeroAddr).onIdealBus [d4, d3, d2, d1] :=
  ⟨by decide +kernel, ⟨_, rfl, rfl⟩, ⟨_, rfl, rfl⟩⟩

theorem mem_two {x a b : Addr} (h : x ∈ [a, b]) : x = a ∨ x = b := by simpa using h

/-- Two devices of families 0x28 and 0x1D; family 0x29 is absent. -/
theorem witness_FamilySearchReturnsTheFamilyFirst : validDevices [d1, d3] ∧ [d1, d3] ≠ [] ∧
    (onLine (idealLine [d1, d3]) 0 0 false zeroAddr).onIdealBus [d1, d3] ∧
    (∃ u, exec (.targetFamily 0x28) (onLine (idealLine [d1, d3]) 0 0 false zeroAddr) = .next u) ∧
    (∃ x ∈ [d1, d3], x[0] = 0x28) ∧ (∀ x ∈ [d1, d3], ∀ y ∈ [d1, d3], ¬ differOnlyAt64 x y) ∧
    ∀ x ∈ [d1, d3], x[0] ≠ 0x29 := by
  have zero : ∀ x ∈ [d1, d3], addrBit x 64 = false := fun x hx => by
    rcases mem_two hx with rfl | rfl <;> decide +kernel
  refine ⟨by decide +kernel, by simp, ⟨_, rfl, rfl⟩, exec_next _ _, ⟨d1, by simp, by decide +kernel⟩,
    fun x hx y hy h => h.2 ((zero x hx).trans (zero y hy).symm), fun x hx => ?_⟩
  rcases mem_two hx with rfl | rfl <;> decide +kernel

/-- E-25. -/
theorem witness_FamilySearchSkipsAtPosition64 : validDevices [x0, x1] ∧
    (onLine (idealLine [x0, x1]) 0 0 false zeroAddr).onIdealBus [x0, x1] ∧ x0 ∈ [x0, x1] ∧ x1 ∈ [x0, x1] ∧
    differOnlyAt64 x0 x1 ∧ addrBit x0 64 = false ∧ x0[0] = 0x28 ∧
    (∀ y ∈ [x0, x1], y[0] = 0x28 → y = x0 ∨ searchBefore x0 y) ∧
    ∃ u, exec (.targetFamily 0x28) (onLine (idealLine [x0, x1]) 0 0 false zeroAddr) = .next u := by
  have before : searchBefore x0 x1 := ⟨64, by decide, agree_pair, by decide +kernel, by decide +kernel⟩
  refine ⟨valid_pair, ⟨_, rfl, rfl⟩, by simp, by simp, ⟨agree_pair, by decide +kernel⟩, by decide +kernel,
    by decide +kernel, fun y hy _ => ?_, exec_next _ _⟩
  rcases mem_two hy with rfl | rfl
  · exact .inl rfl
  · exact .inr before

theorem witness_DiscoverListsEveryDevice : validDevices allFour ∧ afterE2.onIdealBus allFour ∧ allFour.length < 5 :=
  ⟨valid_allFour, ⟨_, rfl, rfl⟩, by decide⟩

end Sys2Proof.Tests
end

/-! PROOFS. The statements of 00_scope.md: what `SetRomBit` writes (R12) and which command a step runs (R15). -/

/-! ## One bit of an address (R11, R12) -/

namespace Sys2Proof.Machine

/-- The bits of a byte after one of them was set (R12). -/
theorem getLsbD_setByteBit (v : Byte) (i : Nat) {j : Nat} (d : Bool) (hj : j < 8) :
    (setByteBit v i d).getLsbD j = if j = i then d else v.getLsbD j := by
  have mask : (1#8 <<< i).getLsbD j = decide (j = i) := by
    rw [← BitVec.twoPow_eq, BitVec.getLsbD_twoPow, Bool.eq_iff_iff, Bool.and_eq_true, decide_eq_true_eq,
      decide_eq_true_eq, decide_eq_true_eq]
    omega
  cases d
  · rw [setByteBit, if_neg Bool.false_ne_true, BitVec.getLsbD_and, BitVec.getLsbD_not, mask]
    by_cases h : j = i <;> simp [h, hj]
  · rw [setByteBit, if_pos rfl, BitVec.getLsbD_or, mask]
    by_cases h : j = i <;> simp [h]

/-- The bytes of an address after one bit was set: only the byte that holds the bit changes (R12). -/
theorem getElem?_setAddrBit (a : Addr) {n : Nat} (d : Bool) (hn : n ≤ 64) (k : Nat) :
    (setAddrBit a n d)[k]? =
      if (n - 1) / 8 = k then some (setByteBit (a[(n - 1) / 8]?.getD 0) ((n - 1) % 8) d) else a[k]? := by
  have hbyte : (n - 1) / 8 < 8 := by omega
  rw [setAddrBit, Vector.getElem?_setIfInBounds, if_pos hbyte]

/-- Two bit positions are equal exactly when their bytes and their places in the byte are (R11). -/
theorem position_eq_iff {n m : Nat} (hn : 0 < n) (hm : 0 < m) :
    m = n ↔ (n - 1) / 8 = (m - 1) / 8 ∧ (m - 1) % 8 = (n - 1) % 8 := by omega

/-- `AddrBit` after `SetRomBit` (R12). -/
theorem addrBit_setAddrBit (a : Addr) {n m : Nat} (d : Bool) (hn : 0 < n) (hn' : n ≤ 64) (hm : 0 < m) :
    addrBit (setAddrBit a n d) m = if m = n then d else addrBit a m := by
  have hbit : (m - 1) % 8 < 8 := Nat.mod_lt _ (by decide)
  rw [addrBit, getElem?_setAddrBit a d hn']
  by_cases hbyte : (n - 1) / 8 = (m - 1) / 8
  · simp [hbyte, getLsbD_setByteBit _ _ d hbit, position_eq_iff hn hm, addrBit]
  · simp [hbyte, position_eq_iff hn hm, addrBit]

end Sys2Proof.Machine

/-! ## What the decoder answers is well formed (R93) -/

namespace Sys2Proof

/-- The value of `k` bytes fits `k` bytes (R51). -/
theorem fromBytes_lt (bs : List Byte) : fromBytes bs < 256 ^ bs.length := by
  induction bs with
  | nil => simp [fromBytes]
  | cons b bs ih =>
    have hb : b.toNat < 256 := b.isLt
    rw [fromBytes, List.length_cons, Nat.pow_succ]
    omega

/-- A `len` field is below 2^16 (R93). -/
theorem memRead_two_lt {p : Packet} {addr len : Nat} (h : memRead p addr 2 = some len) : len < 65536 := by
  rw [memRead, Option.ite_none_right_eq_some] at h
  obtain ⟨hlen, hval⟩ := h
  have hlt := fromBytes_lt ((p.drop addr).take 2)
  rw [List.length_take_of_le (by rw [List.length_drop]; omega)] at hlt
  rw [Option.some.injEq] at hval
  omega

variable {p : Packet} {i : Instr}

/-! ### What each format's decoder accepts (R92, R93) -/

theorem decodeN_eq_ok {c : Instr} : decodeN c p = .ok i ↔ p.length = 1 ∧ c = i := by
  by_cases h : p.length = 1 <;> simp [decodeN, h]

theorem decodeF_eq_ok : decodeF p = .ok i ↔ p.length = 2 ∧ .targetFamily (byteAt p 1) = i := by
  by_cases h : p.length = 2 <;> simp [decodeF, h]

theorem decodeA_eq_ok : decodeA p = .ok i ↔ p.length = 9 ∧
    .checkAddr #v[byteAt p 1, byteAt p 2, byteAt p 3, byteAt p 4, byteAt p 5, byteAt p 6, byteAt p 7, byteAt p 8] = i := by
  by_cases h : p.length = 9 <;> simp [decodeA, h]

theorem decodeB_eq_ok :
    decodeB p = .ok i ↔ ∃ len, memRead p 1 2 = some len ∧ p.length = 3 + len ∧ .crc8 (p.drop 3) = i := by
  cases hl : memRead p 1 2 with
  | none => simp [decodeB, hl]
  | some len => by_cases h : p.length = 3 + len <;> simp [decodeB, hl, h]

theorem decodeS_eq_ok :
    decodeS p = .ok i ↔ ∃ seed len, memRead p 1 2 = some seed ∧ memRead p 3 2 = some len ∧ p.length = 5 + len ∧
      .crc16 (BitVec.ofNat 16 seed) (p.drop 5) = i := by
  cases hs : memRead p 1 2 with
  | none => simp [decodeS, hs]
  | some seed =>
    cases hl : memRead p 3 2 with
    | none => simp [decodeS, hs, hl]
    | some len => by_cases h : p.length = 5 + len <;> simp [decodeS, hs, hl, h]

theorem decodeC_eq_ok :
    decodeC p = .ok i ↔ ∃ seed len, memRead p 1 2 = some seed ∧ memRead p 3 2 = some len ∧ p.length = 7 + len ∧
      .checkCrc16 (BitVec.ofNat 16 seed) ((p.drop 5).take len) (byteAt p (5 + len)) (byteAt p (6 + len)) = i := by
  cases hs : memRead p 1 2 with
  | none => simp [decodeC, hs]
  | some seed =>
    cases hl : memRead p 3 2 with
    | none => simp [decodeC, hs, hl]
    | some len => by_cases h : p.length = 7 + len <;> simp [decodeC, hs, hl, h]

/-- A packet that decodes has one of the eight opcodes, and its format's decoder answers the command (R94). -/
theorem decode_cons_ok_cases {op : Byte} {bs : List Byte} (h : decode (op :: bs) = .ok i) :
    (op = 0x01 ∧ decodeB (op :: bs) = .ok i) ∨ (op = 0x02 ∧ decodeS (op :: bs) = .ok i) ∨
    (op = 0x03 ∧ decodeC (op :: bs) = .ok i) ∨ (op = 0x04 ∧ decodeA (op :: bs) = .ok i) ∨
    (op = 0x10 ∧ decodeN .search (op :: bs) = .ok i) ∨ (op = 0x11 ∧ decodeN .resetSearch (op :: bs) = .ok i) ∨
    (op = 0x12 ∧ decodeF (op :: bs) = .ok i) ∨ (op = 0x13 ∧ decodeN .getState (op :: bs) = .ok i) := by
  simp only [decode] at h
  split_ifs at h <;> simp_all only [true_and, true_or, or_true]

/-- The decoder answers well-formed commands only: a buffer is as long as its 16-bit `len` field says (R93). -/
theorem wellFormed_of_decode (h : decode p = .ok i) : i.wellFormed = true := by
  cases p with
  | nil => cases h
  | cons op bs =>
    obtain ⟨-, h⟩ | ⟨-, h⟩ | ⟨-, h⟩ | ⟨-, h⟩ | ⟨-, h⟩ | ⟨-, h⟩ | ⟨-, h⟩ | ⟨-, h⟩ := decode_cons_ok_cases h
    · obtain ⟨len, hlen, hp, rfl⟩ := decodeB_eq_ok.1 h
      have hlt := memRead_two_lt hlen
      rw [Instr.wellFormed, bufferFits_iff, List.length_drop]
      omega
    · obtain ⟨_, len, -, hlen, hp, rfl⟩ := decodeS_eq_ok.1 h
      have hlt := memRead_two_lt hlen
      rw [Instr.wellFormed, bufferFits_iff, List.length_drop]
      omega
    · obtain ⟨_, len, -, hlen, -, rfl⟩ := decodeC_eq_ok.1 h
      rw [Instr.wellFormed, bufferFits_iff]
      exact (List.length_take_le _ _).trans_lt (memRead_two_lt hlen)
    · obtain ⟨-, rfl⟩ := decodeA_eq_ok.1 h; rfl
    · obtain ⟨-, rfl⟩ := decodeN_eq_ok.1 h; rfl
    · obtain ⟨-, rfl⟩ := decodeN_eq_ok.1 h; rfl
    · obtain ⟨-, rfl⟩ := decodeF_eq_ok.1 h; rfl
    · obtain ⟨-, rfl⟩ := decodeN_eq_ok.1 h; rfl

end Sys2Proof

/-! ## The statements of 00_scope.md -/

namespace Sys2Proof.Machine

/-- Settles O32: a position of R11 is at most 64, so its byte is in the address. -/
theorem setRomBitWritesOneBit : Obligations.SetRomBitWritesOneBit := by
  intro a n m d hn hm
  rw [addrBit_setAddrBit a d hn (Nat.le_of_lt_succ n.isLt) hm]
  simp only [Fin.ext_iff]

/-- Settles O6, from the decoder's well-formedness and the step on a packet. -/
theorem stepRunsTheDecodedCommand : Obligations.StepRunsTheDecodedCommand := by
  intro s p rest i hinputs hdecode
  have hstep : step s = exec i (s.setInputs rest) :=
    (step_packet hinputs).trans (runPacket_ok _ hdecode)
  exact ⟨wellFormed_of_decode hdecode, hstep⟩

end Sys2Proof.Machine

/-! PROOFS. The statements of 10_state.md: what the CRC family, GET_STATE and RESET_SEARCH do with the four items (R21,
R28, R34), and that a pass reads neither `LFD` (R24) nor, while `LD` is 0, `ROM` (R23, R27). -/

/-! ## The commands without a bus transaction (R21, R28, R34) -/

namespace Sys2Proof.Machine

/-- A command of the CRC family answers `OK` with a payload that no state has a part in (R21, R120). -/
theorem exec_crcFamily {i : Instr}
    (hi : (∃ buf, i = .crc8 buf) ∨ (∃ seed buf, i = .crc16 seed buf) ∨
      (∃ seed buf q0 q1, i = .checkCrc16 seed buf q0 q1) ∨ ∃ a, i = .checkAddr a) :
    ∃ payload, ∀ s, exec i s = .next (s.respond .ok payload) := by
  obtain ⟨buf, rfl⟩ | ⟨seed, buf, rfl⟩ | ⟨seed, buf, q0, q1, rfl⟩ | ⟨a, rfl⟩ := hi
  all_goals exact ⟨_, fun _ => rfl⟩

theorem exec_getState (s : State) : exec .getState s = .next (s.respond .ok (stateImage s)) := rfl

theorem exec_resetSearch (s : State) :
    exec .resetSearch s = .next (((s.setSearch 0 0 false).setRom zeroAddr).respond .ok []) := rfl

theorem exec_search (s : State) : exec .search s = .next (search s) := rfl

/-- A field of at most 256 values zero-extended to a byte can be read back (R28). -/
theorem ofNat_byte_injective {n : Nat} (hn : n ≤ 256) {x y : Fin n}
    (h : BitVec.ofNat 8 x.val = BitVec.ofNat 8 y.val) : x = y := by
  have hmod := congrArg BitVec.toNat h
  rw [BitVec.toNat_ofNat, BitVec.toNat_ofNat] at hmod
  omega

/-- The image holds each of the four items at its own place (R28). -/
theorem stateImage_eq_iff {s s' : State} :
    stateImage s = stateImage s' ↔ s.ld = s'.ld ∧ s.lfd = s'.lfd ∧ s.ldf = s'.ldf ∧ s.rom = s'.rom := by
  refine ⟨fun h => ?_, fun ⟨hld, hlfd, hldf, hrom⟩ => by rw [stateImage, stateImage, hld, hlfd, hldf, hrom]⟩
  simp only [stateImage, List.cons.injEq] at h
  obtain ⟨hld, hlfd, hldf, hrom⟩ := h
  have hflag : ∀ x y : Bool, (if x then 0x01 else 0x00 : Byte) = (if y then 0x01 else 0x00) → x = y := by decide
  exact ⟨ofNat_byte_injective (by decide) hld, ofNat_byte_injective (by decide) hlfd, hflag _ _ hldf,
    Vector.toList_inj.1 hrom⟩

end Sys2Proof.Machine

/-! ## The bits of an address (R11) -/

namespace Sys2Proof.Machine

/-- The positions of a pass are the bit positions (R11). -/
theorem mem_positions {n : Position} : n ∈ positions ↔ 0 < n := by
  have htail : positions = (List.finRange 64).map Fin.succ := congrArg List.tail (List.finRange_succ (n := 64))
  simp [htail, Fin.pos_iff_ne_zero, Fin.exists_succ_eq]

/-- An address is its bits at the positions 1 to 64 (R11). -/
theorem addr_eq_of_addrBit {a b : Addr} (h : ∀ m : Position, 0 < m → addrBit a m = addrBit b m) : a = b := by
  refine Vector.ext fun k hk => BitVec.eq_of_getLsbD_eq fun j hj => ?_
  have hbit := h ⟨8 * k + j + 1, by omega⟩ (Nat.succ_pos _)
  have hbyte : (8 * k + j) / 8 = k := by omega
  have hplace : (8 * k + j) % 8 = j := by omega
  simpa [addrBit, hbyte, hplace, hk] using hbit

end Sys2Proof.Machine

/-! ## Two passes side by side -/

namespace Sys2Proof.Machine

section
variable {s : State}

/-- SEARCH with `LDF` set (R152, step 1). -/
theorem search_of_ldf (hldf : s.ldf = true) : search s = s.respond .noMoreDevices s.rom.toList := if_pos hldf

/-- SEARCH without a presence pulse (R152, step 2). -/
theorem search_of_no_presence (hldf : s.ldf = false) (hpresence : s.port.busReset.1 = false) :
    search s = searchFailure .noPresence (s.setPort s.port.busReset.2) := by
  simp [search, hldf, hpresence]

/-- SEARCH with a presence pulse is its pass, written back (R152, steps 3 to 7). -/
theorem search_of_presence (hldf : s.ldf = false) (hpresence : s.port.busReset.1 = true) :
    search s = finishPass (searchPass s) s := by
  simp [search, searchPass, hldf, hpresence]

end

@[simp] theorem searchFailure_statusByte (status : Status) (s : State) :
    (searchFailure status s).statusByte = some status.code := rfl

section
variable {ld n : Position} {p : Pass}

/-- Both sampled bits are 1: the position fails (R155). -/
theorem scanPosition_eq_fail (h : (p.port.busReadBit.1 && p.port.busReadBit.2.busReadBit.1) = true) :
    scanPosition ld n p = failPosition p p.port.busReadBit.2.busReadBit.2 := if_pos h

/-- Otherwise the position is resolved (R155 to R157). -/
theorem scanPosition_eq_resolve (h : (p.port.busReadBit.1 && p.port.busReadBit.2.busReadBit.1) = false) :
    scanPosition ld n p =
      resolvePosition n p.port.busReadBit.1 p.port.busReadBit.2.busReadBit.1
        (direction ld n p.rom p.port.busReadBit.1 p.port.busReadBit.2.busReadBit.1) p
        p.port.busReadBit.2.busReadBit.2 := if_neg (ne_true_of_eq_false h)

end

/-- A relation between two passes, indexed by the positions that are left, holds at the end of both if each position
keeps it and it outlives an early end. -/
theorem scan_simulation {ld : Position} {R : List Position → Pass → Pass → Prop}
    (hok : ∀ {ns p q}, R ns p q → q.ok = p.ok)
    (hstep : ∀ {n ns p q}, R (n :: ns) p q → R ns (scanPosition ld n p) (scanPosition ld n q))
    (hstop : ∀ {ns p q}, R ns p q → p.ok = false → R [] p q)
    {ns : List Position} {p q : Pass} (h : R ns p q) : R [] (scan ld ns p) (scan ld ns q) := by
  induction ns generalizing p q with
  | nil => exact h
  | cons n ns ih =>
    have hnext := hstep h
    cases hp : (scanPosition ld n p).ok with
    | false =>
      rw [scan_cons_fail hp, scan_cons_fail ((hok hnext).trans hp)]
      exact hstop hnext hp
    | true =>
      rw [scan_cons_ok hp, scan_cons_ok ((hok hnext).trans hp)]
      exact ih hnext

/-! ### `LFD` (R24) -/

/-- `q` is `p` but for `LFD`. -/
def Pass.sameButLfd (p q : Pass) : Prop := ∃ v, q = { p with lfd := v }

/-- One position writes `LFD` and does not read it (R24, R156). -/
theorem scanPosition_sameButLfd {ld n : Position} {p q : Pass} (h : p.sameButLfd q) :
    (scanPosition ld n p).sameButLfd (scanPosition ld n q) := by
  obtain ⟨v, rfl⟩ := h
  cases hbits : p.port.busReadBit.1 && p.port.busReadBit.2.busReadBit.1 with
  | true =>
    rw [scanPosition_eq_fail hbits, scanPosition_eq_fail (p := { p with lfd := v }) hbits]
    exact ⟨v, rfl⟩
  | false =>
    rw [scanPosition_eq_resolve hbits, scanPosition_eq_resolve (p := { p with lfd := v }) hbits]
    exact ⟨_, rfl⟩

/-- A whole pass does not read `LFD` (R24). -/
theorem searchPass_sameButLfd (s : State) (v : FamilyPosition) :
    (searchPass s).sameButLfd (searchPass { s with lfd := v }) :=
  scan_simulation (R := fun _ => Pass.sameButLfd) (fun ⟨_, h⟩ => h ▸ rfl) scanPosition_sameButLfd (fun h _ => h)
    ⟨v, rfl⟩

/-- The end of a pass does not read `LFD` (R158, R159). -/
theorem finishPass_setLfd (p : Pass) (s : State) (v w : FamilyPosition) :
    ∃ x, finishPass { p with lfd := w } { s with lfd := v } = { finishPass p s with lfd := x } := by
  cases hok : p.ok with
  | false => exact ⟨0, by simp only [finishPass, hok]; rfl⟩
  | true =>
    by_cases hzero : p.rom = zeroAddr
    · exact ⟨0, by simp only [finishPass, hok, if_pos hzero]; rfl⟩
    · exact ⟨w, by simp only [finishPass, hok, if_neg hzero]; rfl⟩

/-- SEARCH does not read `LFD` (R24). -/
theorem search_setLfd (s : State) (v : FamilyPosition) :
    ∃ x, search { s with lfd := v } = { search s with lfd := x } := by
  obtain hldf | hldf := Bool.eq_false_or_eq_true s.ldf
  · rw [search_of_ldf hldf, search_of_ldf (s := { s with lfd := v }) hldf]
    exact ⟨v, rfl⟩
  · cases hpresence : s.port.busReset.1 with
    | false =>
      rw [search_of_no_presence hldf hpresence, search_of_no_presence (s := { s with lfd := v }) hldf hpresence]
      exact ⟨0, rfl⟩
    | true =>
      obtain ⟨w, hpass⟩ := searchPass_sameButLfd s v
      rw [search_of_presence hldf hpresence, search_of_presence (s := { s with lfd := v }) hldf hpresence, hpass]
      exact finishPass_setLfd (searchPass s) s v w

/-- No command but GET_STATE reads `LFD` (R24): it decides nothing in the next state but `LFD` itself. -/
theorem exec_setLfd {i : Instr} (hi : i ≠ .getState) (s : State) (v : FamilyPosition) :
    ∃ t x, exec i s = .next t ∧ exec i { s with lfd := v } = .next { t with lfd := x } := by
  cases i with
  | crc8 | crc16 | checkCrc16 | checkAddr => exact ⟨_, v, rfl, rfl⟩
  | search =>
    obtain ⟨x, hx⟩ := search_setLfd s v
    exact ⟨search s, x, rfl, congrArg _ hx⟩
  | resetSearch | targetFamily => exact ⟨_, 0, rfl, rfl⟩
  | getState => exact absurd rfl hi

/-! ### `ROM` while `LD` is 0 (R23, R27) -/

/-- While `LD` is 0 the direction at a discrepancy is not taken from `ROM` (R156). -/
theorem direction_zero (n : Position) (rom : Addr) (b c : Bool) :
    direction 0 n rom b c = if discrepancy b c then decide (n = 0) else b := by
  rw [direction, if_neg (Fin.not_lt_zero n)]

/-- `q` is `p` but for `ROM`, and unless the passes have failed the two `ROM`s agree on every bit position that is not
in `ns`, the positions left to scan. -/
structure Pass.romDiffersWithin (ns : List Position) (p q : Pass) : Prop where
  bits : ∀ n ∈ ns, 0 < n
  sameButRom : ∃ rom, q = { p with rom := rom }
  scanned : p.ok = true → ∀ m : Position, 0 < m → m ∉ ns → addrBit p.rom m = addrBit q.rom m

/-- With `LD` 0 one position leaves the same bit in both `ROM`s (R156, R157). -/
theorem scanPosition_romDiffersWithin {n : Position} {ns : List Position} {p q : Pass}
    (h : p.romDiffersWithin (n :: ns) q) :
    (scanPosition 0 n p).romDiffersWithin ns (scanPosition 0 n q) := by
  obtain ⟨hbits, ⟨rom, rfl⟩, hscanned⟩ := h
  have hns : ∀ m ∈ ns, 0 < m := fun m hm => hbits m (List.mem_cons_of_mem n hm)
  cases hread : p.port.busReadBit.1 && p.port.busReadBit.2.busReadBit.1 with
  | true =>
    rw [scanPosition_eq_fail hread, scanPosition_eq_fail (p := { p with rom := rom }) hread]
    exact ⟨hns, ⟨rom, rfl⟩, fun hok => absurd hok Bool.false_ne_true⟩
  | false =>
    rw [scanPosition_eq_resolve hread, scanPosition_eq_resolve (p := { p with rom := rom }) hread, direction_zero,
      direction_zero]
    refine ⟨hns, ⟨_, rfl⟩, fun hok m hm hmem => ?_⟩
    have hn : 0 < n := hbits n List.mem_cons_self
    have hn' : n.val ≤ 64 := Nat.le_of_lt_succ n.isLt
    rw [resolvePosition_rom, resolvePosition_rom, addrBit_setAddrBit _ _ hn hn' hm, addrBit_setAddrBit _ _ hn hn' hm]
    by_cases hmn : m.val = n.val
    · rw [if_pos hmn, if_pos hmn]
    · rw [if_neg hmn, if_neg hmn]
      exact hscanned hok m hm (List.not_mem_cons_of_ne_of_not_mem (fun e => hmn (congrArg Fin.val e)) hmem)

/-- A pass from `LD` = 0 does not depend on `ROM`, but for the bits it did not reach when it fails (R23, R27). -/
theorem searchPass_setRom {s : State} (hld : s.ld = 0) (rom : Addr) :
    (searchPass s).romDiffersWithin [] (searchPass { s with rom := rom }) := by
  rw [searchPass, searchPass, hld]
  refine scan_simulation (R := Pass.romDiffersWithin) (fun h => ?_) scanPosition_romDiffersWithin (fun h hok => ?_) ?_
  · obtain ⟨_, hq⟩ := h.sameButRom
    rw [hq]
  · exact ⟨List.forall_mem_nil _, h.sameButRom, fun hok' => absurd (hok.symm.trans hok') Bool.false_ne_true⟩
  · exact ⟨fun _ => mem_positions.1, ⟨rom, rfl⟩, fun _ m hm hmem => absurd (mem_positions.2 hm) hmem⟩

/-- A complete pass from `LD` = 0 is the same pass whatever `ROM` was. -/
theorem searchPass_setRom_of_ok {s : State} (hld : s.ld = 0) (rom : Addr) (hok : (searchPass s).ok = true) :
    searchPass { s with rom := rom } = searchPass s := by
  obtain ⟨-, ⟨rom', hpass⟩, hscanned⟩ := searchPass_setRom hld rom
  have hrom : (searchPass s).rom = (searchPass { s with rom := rom }).rom :=
    addr_eq_of_addrBit fun m hm => hscanned hok m hm List.not_mem_nil
  have hrom' : rom' = (searchPass s).rom := (congrArg Pass.rom hpass).symm.trans hrom.symm
  rw [hpass, hrom']

/-- The end of a pass takes `ROM` from the pass (R158). -/
theorem finishPass_setRom (p : Pass) (s : State) (rom : Addr) :
    finishPass p { s with rom := rom } = finishPass p s := rfl

/-- A pass that failed ends in NO_RESPONSE (R159). -/
theorem finishPass_statusByte_of_not_ok {p : Pass} (s : State) (hok : p.ok = false) :
    (finishPass p s).statusByte = some Status.noResponse.code := by
  simp [finishPass, hok]

/-- A SEARCH from `LD` = 0 is the same whatever `ROM` was, or its pass is not complete, with the same status. -/
theorem search_setRom {s : State} (hld : s.ld = 0) (hldf : s.ldf = false) (rom : Addr) :
    search { s with rom := rom } = search s ∨
    ∃ status : Status, status ≠ .ok ∧ status ≠ .zeroAddress ∧
      (search s).statusByte = some status.code ∧ (search { s with rom := rom }).statusByte = some status.code := by
  cases hpresence : s.port.busReset.1 with
  | false =>
    rw [search_of_no_presence hldf hpresence, search_of_no_presence (s := { s with rom := rom }) hldf hpresence]
    exact .inr ⟨.noPresence, by decide, by decide, rfl, rfl⟩
  | true =>
    rw [search_of_presence hldf hpresence, search_of_presence (s := { s with rom := rom }) hldf hpresence,
      finishPass_setRom]
    cases hok : (searchPass s).ok with
    | true => exact .inl (by rw [searchPass_setRom_of_ok hld rom hok])
    | false =>
      obtain ⟨rom', hpass⟩ := (searchPass_setRom hld rom).sameButRom
      have hok' : (searchPass { s with rom := rom }).ok = false := by rw [hpass]; exact hok
      exact .inr ⟨.noResponse, by decide, by decide, finishPass_statusByte_of_not_ok s hok,
        finishPass_statusByte_of_not_ok s hok'⟩

end Sys2Proof.Machine

/-! ## The statements of 10_state.md -/

namespace Sys2Proof.Machine

/-- Settles O25, since the payload is fixed before the state is looked at. -/
theorem crcFamilyIsStateless : Obligations.CrcFamilyIsStateless := by
  intro i s s' t t' hi ht ht'
  obtain ⟨payload, hexec⟩ := exec_crcFamily hi
  obtain rfl := Host.Outcome.next.inj ((hexec s).symm.trans ht)
  obtain rfl := Host.Outcome.next.inj ((hexec s').symm.trans ht')
  exact ⟨rfl, rfl⟩

/-- Settles O29, since the image is injective on the four items. -/
theorem getStateImageDeterminesTheRegisters : Obligations.GetStateImageDeterminesTheRegisters := by
  intro s s' t t' ht ht' hresponse
  obtain rfl := Host.Outcome.next.inj ((exec_getState s).symm.trans ht)
  obtain rfl := Host.Outcome.next.inj ((exec_getState s').symm.trans ht')
  rw [State.respond_response, State.respond_response, Option.some.injEq, List.cons.injEq] at hresponse
  exact stateImage_eq_iff.1 hresponse.2

/-- Settles O31, by running the two passes of a SEARCH side by side. -/
theorem onlyGetStateReadsLfd : Obligations.OnlyGetStateReadsLfd := by
  intro i s t u v hi ht hu
  obtain ⟨t', x, ht', hu'⟩ := exec_setLfd hi s v
  obtain rfl := Host.Outcome.next.inj (ht'.symm.trans ht)
  obtain rfl := Host.Outcome.next.inj (hu'.symm.trans hu)
  rfl

/-- Settles O41: a complete pass has written every bit of `ROM`, and a failed one answers the same status. -/
theorem romIsNotReadWhileLdIsZero : Obligations.RomIsNotReadWhileLdIsZero := by
  intro s t u rom hld hldf ht hu
  obtain rfl := Host.Outcome.next.inj ((exec_search s).symm.trans ht)
  obtain rfl := Host.Outcome.next.inj ((exec_search _).symm.trans hu)
  obtain hsame | ⟨status, hnotOk, hnotZero, hs, hs'⟩ := search_setRom hld hldf rom
  · exact ⟨congrArg State.statusByte hsame.symm, fun _ => hsame.symm⟩
  · refine ⟨hs.trans hs'.symm, fun hstatus => ?_⟩
    rw [hs] at hstatus
    obtain hcode | hcode := hstatus
    · exact absurd (Status.code_injective (b := .ok) (Option.some.inj hcode)) hnotOk
    · exact absurd (Status.code_injective (b := .zeroAddress) (Option.some.inj hcode)) hnotZero

/-- Settles O11: the reset values are literals, and RESET_SEARCH writes the same four. -/
theorem resetStateIsTheStateAfterResetSearch : Obligations.ResetStateIsTheStateAfterResetSearch :=
  ⟨rfl, rfl, rfl, rfl, rfl, rfl, fun s => ⟨_, exec_resetSearch s, rfl, rfl, rfl, rfl⟩⟩

end Sys2Proof.Machine

/-! PROOFS. The statements of 20_memory.md about the bus port: a time-out reads as the default value (R66), what a pass
costs on the UART (R67), and a SEARCH over any scripted answers (R69). -/

/-! ## A SEARCH and its port (R152) -/

namespace Sys2Proof.Machine

@[simp] theorem startPass_port (s : State) (port : Port) : (startPass s port).port = port := rfl

@[simp] theorem searchFailure_port (status : Status) (s : State) : (searchFailure status s).port = s.port := rfl

/-- The end of a pass issues no bus transaction (R158, R159). -/
@[simp] theorem finishPass_port (p : Pass) (s : State) : (finishPass p s).port = p.port := by
  cases hok : p.ok with
  | false => simp [finishPass, hok]
  | true => by_cases hzero : p.rom = zeroAddr <;> simp [finishPass, hok, hzero]

/-- A complete pass over a non-zero address ends in OK (R159). -/
theorem finishPass_statusByte_of_ok {p : Pass} (s : State) (hok : p.ok = true) (hrom : p.rom ≠ zeroAddr) :
    (finishPass p s).statusByte = some Status.ok.code := by
  simp [finishPass, hok, hrom]

end Sys2Proof.Machine

/-! ## Time-outs (R66) -/

namespace Sys2Proof.Machine

@[simp] theorem Reply.defaulted_presence (r : Reply) : r.defaulted.presence = r.presence := by cases r <;> rfl
@[simp] theorem Reply.defaulted_bit (r : Reply) : r.defaulted.bit = r.bit := by cases r <;> rfl

/-- The line with its timed-out replies read as the default value; the ideal bus has none (R66, R74). -/
def Line.defaulted : Line → Line
  | .scripted rs => .scripted (rs.map Reply.defaulted)
  | .ideal b => .ideal b

/-- The port on the defaulted line. -/
def Port.defaulted (p : Port) : Port := { p with line := p.line.defaulted }

/-- The pass on the defaulted line. -/
def Pass.defaulted (p : Pass) : Pass := { p with port := p.port.defaulted }

/-- The state on the defaulted line. -/
def State.defaulted (s : State) : State := s.setPort s.port.defaulted

@[simp] theorem Pass.defaulted_port (p : Pass) : p.defaulted.port = p.port.defaulted := rfl

section
variable (p : Port)

/-! Each primitive on the defaulted line gives the same answer and leaves the defaulted line behind. -/

theorem Port.busReset_defaulted : p.defaulted.busReset = (p.busReset.1, p.busReset.2.defaulted) := by
  obtain ⟨mode, (_ | ⟨r, rs⟩) | b, drawn, trace⟩ := p <;> simp [Port.defaulted, Line.defaulted, Port.busReset]

theorem Port.busReadBit_defaulted : p.defaulted.busReadBit = (p.busReadBit.1, p.busReadBit.2.defaulted) := by
  obtain ⟨mode, (_ | ⟨r, rs⟩) | b, drawn, trace⟩ := p <;> simp [Port.defaulted, Line.defaulted, Port.busReadBit]

theorem Port.busWriteByte_defaulted (v : Byte) : p.defaulted.busWriteByte v = (p.busWriteByte v).defaulted := by
  obtain ⟨mode, rs | b, drawn, trace⟩ := p <;> rfl

theorem Port.busWriteBit_defaulted (d : Bool) : p.defaulted.busWriteBit d = (p.busWriteBit d).defaulted := by
  obtain ⟨mode, rs | b, drawn, trace⟩ := p <;> rfl

end

theorem failPosition_defaulted (p : Pass) (port : Port) :
    failPosition p.defaulted port.defaulted = (failPosition p port).defaulted := rfl

theorem resolvePosition_defaulted (n : Position) (b c d : Bool) (p : Pass) (port : Port) :
    resolvePosition n b c d p.defaulted port.defaulted = (resolvePosition n b c d p port).defaulted := by
  simp only [resolvePosition, Port.busWriteBit_defaulted]
  rfl

/-- One position samples the same bits on the defaulted line (R66). -/
theorem scanPosition_defaulted (ld n : Position) (p : Pass) :
    scanPosition ld n p.defaulted = (scanPosition ld n p).defaulted := by
  simp only [scanPosition, Pass.defaulted_port, Port.busReadBit_defaulted]
  split
  · exact failPosition_defaulted p _
  · exact resolvePosition_defaulted n _ _ _ p _

/-- A whole pass takes the same course on the defaulted line. -/
theorem scan_defaulted (ld : Position) (ns : List Position) (p : Pass) :
    scan ld ns p.defaulted = (scan ld ns p).defaulted :=
  scan_simulation (R := fun _ p q => q = p.defaulted) (fun h => h ▸ rfl)
    (fun h => h ▸ scanPosition_defaulted ld _ _) (fun h _ => h) rfl

/-- So does the pass of a SEARCH, from its reset on. -/
theorem searchPass_defaulted (s : State) : searchPass s.defaulted = (searchPass s).defaulted := by
  have hstart : startPass s.defaulted (s.defaulted.port.busReset.2.busWriteByte Config.searchRom) =
      (startPass s (s.port.busReset.2.busWriteByte Config.searchRom)).defaulted := by
    simp only [State.defaulted, State.setPort_port, Port.busReset_defaulted, Port.busWriteByte_defaulted]
    rfl
  rw [searchPass, hstart]
  exact scan_defaulted s.ld positions _

/-- The end of a pass keeps the line of the pass and does not read it. -/
theorem finishPass_defaulted (p : Pass) (s : State) :
    finishPass p.defaulted s.defaulted = (finishPass p s).defaulted := by
  cases hok : p.ok with
  | false => simp only [finishPass, Pass.defaulted, hok]; rfl
  | true =>
    by_cases hzero : p.rom = zeroAddr
    · simp only [finishPass, Pass.defaulted, hok, if_pos hzero]; rfl
    · simp only [finishPass, Pass.defaulted, hok, if_neg hzero]; rfl

/-- A state on the defaulted line is the state itself once its own line is put back. -/
theorem setLine_of_eq_defaulted {t u : State} (h : u = t.defaulted) :
    { u with port := { u.port with line := t.port.line } } = t := by
  rw [h]
  rfl

/-- A SEARCH on the defaulted line is the same SEARCH (R66). -/
theorem search_defaulted (s : State) : search s.defaulted = (search s).defaulted := by
  obtain hldf | hldf := Bool.eq_false_or_eq_true s.ldf
  · rw [search_of_ldf hldf, search_of_ldf (s := s.defaulted) hldf]
    rfl
  · have hreset : s.defaulted.port.busReset = (s.port.busReset.1, s.port.busReset.2.defaulted) :=
      Port.busReset_defaulted s.port
    have hsame : s.defaulted.port.busReset.1 = s.port.busReset.1 := by rw [hreset]
    cases hpresence : s.port.busReset.1 with
    | false =>
      rw [search_of_no_presence hldf hpresence,
        search_of_no_presence (s := s.defaulted) hldf (hsame.trans hpresence), hreset]
      rfl
    | true =>
      rw [search_of_presence hldf hpresence,
        search_of_presence (s := s.defaulted) hldf (hsame.trans hpresence), searchPass_defaulted]
      exact finishPass_defaulted (searchPass s) s

end Sys2Proof.Machine

/-! ## The UART (R67) -/

namespace Sys2Proof.Machine

/-- One position costs a mode switch where one is needed, and one byte for each of its three transactions (R64, R65). -/
theorem uartBytes_positionTxns_append (m : TransportMode) (x : BitTriple) (ts : List BusTxn) :
    uartBytes m (positionTxns x ++ ts) =
      switchBytes m .command ++ ([0x91, 0x91, if x.2.2 then 0x91 else 0x81] ++ uartBytes .command ts) :=
  List.append_assoc _ [_] _

/-- The positions of a pass, once the transport is in Command Mode. -/
theorem uartBytes_positions (bits : List BitTriple) :
    uartBytes .command (bits.flatMap positionTxns) =
      bits.flatMap fun x => [0x91, 0x91, if x.2.2 then 0x91 else 0x81] := by
  induction bits with
  | nil => rfl
  | cons x bits ih =>
    rw [List.flatMap_cons, List.flatMap_cons, uartBytes_positionTxns_append, ih]
    rfl

/-- A position ends in Command Mode, failed or resolved (R64, R65). -/
@[simp] theorem scanPosition_mode (ld n : Position) (p : Pass) : (scanPosition ld n p).port.mode = .command := by
  obtain ⟨-, -, h⟩ | ⟨-, h⟩ := scanPosition_cases ld n p <;> simp [h]

/-- A pass over at least one position ends in Command Mode. -/
theorem scan_mode {ld : Position} {ns : List Position} {p : Pass} (h : ns = [] → p.port.mode = .command) :
    (scan ld ns p).port.mode = .command := by
  induction ns generalizing p with
  | nil => exact h rfl
  | cons n ns ih =>
    cases hok : (scanPosition ld n p).ok with
    | false => rw [scan_cons_fail hok, scanPosition_mode]
    | true => rw [scan_cons_ok hok]; exact ih fun _ => scanPosition_mode ld n p

/-- A SEARCH that touches the bus ends in Command Mode (R62 to R65). -/
theorem search_mode {s : State} (hldf : s.ldf = false) : (search s).port.mode = .command := by
  cases hpresence : s.port.busReset.1 with
  | false => rw [search_of_no_presence hldf hpresence]; exact Port.busReset_mode _
  | true =>
    have hpositions : positions ≠ [] := List.ne_nil_of_mem (mem_positions.2 (Fin.zero_lt_one (n := 63)))
    rw [search_of_presence hldf hpresence, finishPass_port]
    exact scan_mode fun hnil => absurd hnil hpositions

end Sys2Proof.Machine

/-! ## A SEARCH over scripted answers (R69) -/

namespace Sys2Proof.Machine

theorem positions_length : positions.length = 64 := by simp [positions, Config.addrBits]

theorem positions_nodup : positions.Nodup := (List.nodup_finRange _).tail

theorem addrBit_zeroAddr (n : Position) : addrBit zeroAddr n = false := by revert n; decide

/-- The replies to the two reads of each position. -/
def pairReplies (pairs : List (Bool × Bool)) : List Reply := pairs.flatMap fun x => [.answer x.1, .answer x.2]

theorem pairReplies_cons (x : Bool × Bool) (pairs : List (Bool × Bool)) :
    pairReplies (x :: pairs) = .answer x.1 :: .answer x.2 :: pairReplies pairs := rfl

/-- A pair of samples other than 1, 1 does not fail (R155). -/
theorem samples_resolve {x : Bool × Bool} (h : x ≠ (true, true)) : (x.1 && x.2) = false := by revert x; decide

/-- The pass has not failed, and its line holds the answers `pairs` for the positions that are left, then `rest`. -/
structure Pass.awaits (pairs : List (Bool × Bool)) (rest : List Reply) (p : Pass) : Prop where
  ok : p.ok = true
  line : p.port.line = .scripted (pairReplies pairs ++ rest)
  resolves : ∀ x ∈ pairs, x ≠ (true, true)

section
variable {ld n : Position} {ns : List Position} {p : Pass} {x : Bool × Bool} {pairs : List (Bool × Bool)}
  {rest : List Reply}

/-- A position with scripted answers is resolved by them, and takes them off the line (R64, R69). -/
theorem scanPosition_of_awaits (h : p.awaits (x :: pairs) rest) :
    scanPosition ld n p = resolvePosition n x.1 x.2 (direction ld n p.rom x.1 x.2) p
      { p.port with
        mode := .command
        line := .scripted (pairReplies pairs ++ rest)
        trace := p.port.trace ++ [.readBit x.1] ++ [.readBit x.2] } := by
  have hresolve : (x.1 && x.2) = false := samples_resolve (h.resolves x List.mem_cons_self)
  have hfirst := Port.busReadBit_scripted p.port (h.line.trans (by rw [pairReplies_cons]; rfl))
  have hsecond : p.port.busReadBit.2.busReadBit = _ := Port.busReadBit_scripted _ (congrArg (·.2.line) hfirst)
  rw [hfirst] at hsecond
  rw [scanPosition_eq_resolve (by rw [hfirst, hsecond]; exact hresolve), hfirst, hsecond]
  rfl

/-- The position leaves the pass with the answers of the positions after it. -/
theorem scanPosition_awaits (h : p.awaits (x :: pairs) rest) : (scanPosition ld n p).awaits pairs rest := by
  rw [scanPosition_of_awaits h]
  exact ⟨h.ok, Port.busWriteBit_scripted _ _ rfl, fun y hy => h.resolves y (List.mem_cons_of_mem x hy)⟩

/-- The pass goes on to the positions after it. -/
theorem scan_cons_of_awaits (h : p.awaits (x :: pairs) rest) :
    scan ld (n :: ns) p = scan ld ns (scanPosition ld n p) := scan_cons_ok (scanPosition_awaits h).ok

theorem scanPosition_drawn (h : p.awaits (x :: pairs) rest) : (scanPosition ld n p).port.drawn = p.port.drawn := by
  simp [scanPosition_of_awaits h]

theorem scanPosition_trace (h : p.awaits (x :: pairs) rest) :
    (scanPosition ld n p).port.trace =
      p.port.trace ++ positionTxns (x.1, x.2, direction ld n p.rom x.1 x.2) := by
  simp [scanPosition_of_awaits h, positionTxns]

/-- With one pair of answers for each position the pass completes, and takes exactly those answers (R69). -/
theorem scan_awaits (hlen : pairs.length = ns.length) (h : p.awaits pairs rest) : (scan ld ns p).awaits [] rest := by
  induction ns generalizing p pairs with
  | nil => obtain rfl := List.length_eq_zero_iff.1 hlen; exact h
  | cons n ns ih =>
    obtain ⟨x, pairs, rfl⟩ := List.exists_cons_of_length_eq_add_one hlen
    rw [scan_cons_of_awaits h]
    exact ih (Nat.succ.inj hlen) (scanPosition_awaits h)

/-- Such a pass draws no free answer and issues read, read, write at each position, reading its answers in order. -/
theorem scan_txns (hlen : pairs.length = ns.length) (h : p.awaits pairs rest) :
    (scan ld ns p).port.drawn = p.port.drawn ∧ ∃ bits : List BitTriple, bits.map (fun x => (x.1, x.2.1)) = pairs ∧
      (scan ld ns p).port.trace = p.port.trace ++ bits.flatMap positionTxns := by
  induction ns generalizing p pairs with
  | nil => obtain rfl := List.length_eq_zero_iff.1 hlen; exact ⟨rfl, [], rfl, (List.append_nil _).symm⟩
  | cons n ns ih =>
    obtain ⟨x, pairs, rfl⟩ := List.exists_cons_of_length_eq_add_one hlen
    obtain ⟨hdrawn, bits, hbits, htrace⟩ := ih (Nat.succ.inj hlen) (scanPosition_awaits (ld := ld) (n := n) h)
    rw [scan_cons_of_awaits h]
    refine ⟨hdrawn.trans (scanPosition_drawn h), (x.1, x.2, direction ld n p.rom x.1 x.2) :: bits, ?_, ?_⟩
    · rw [List.map_cons, hbits]
    · rw [htrace, scanPosition_trace h, List.append_assoc, List.flatMap_cons]

/-- The position writes the direction to its own bit of `ROM`, and to no other (R12, R157). -/
theorem addrBit_scanPosition (h : p.awaits (x :: pairs) rest) (hn : 0 < n) {m : Position} (hm : 0 < m) :
    addrBit (scanPosition ld n p).rom m = if m = n then direction ld n p.rom x.1 x.2 else addrBit p.rom m := by
  rw [scanPosition_of_awaits h, resolvePosition_rom, addrBit_setAddrBit _ _ hn (Nat.le_of_lt_succ n.isLt) hm]
  simp only [Fin.ext_iff]

/-- A 1 in `ROM` that no position left will write, or an answer 1, 0 to come, gives the pass an address with a 1
(R155). -/
theorem scan_rom_has_one (hlen : pairs.length = ns.length) (h : p.awaits pairs rest) (hnodup : ns.Nodup)
    (hpos : ∀ n ∈ ns, 0 < n)
    (hone : (∃ m : Position, 0 < m ∧ m ∉ ns ∧ addrBit p.rom m = true) ∨ (true, false) ∈ pairs) :
    ∃ m : Position, addrBit (scan ld ns p).rom m = true := by
  induction ns generalizing p pairs with
  | nil =>
    obtain rfl := List.length_eq_zero_iff.1 hlen
    obtain ⟨m, -, -, hbit⟩ | hmem := hone
    · exact ⟨m, hbit⟩
    · exact absurd hmem List.not_mem_nil
  | cons n ns ih =>
    obtain ⟨x, pairs, rfl⟩ := List.exists_cons_of_length_eq_add_one hlen
    obtain ⟨hnotMem, hnodup⟩ := List.nodup_cons.1 hnodup
    have hn : 0 < n := hpos n List.mem_cons_self
    rw [scan_cons_of_awaits h]
    refine ih (Nat.succ.inj hlen) (scanPosition_awaits h) hnodup (fun m hm => hpos m (List.mem_cons_of_mem n hm)) ?_
    obtain ⟨m, hm, hmem, hbit⟩ | hmem := hone
    · obtain ⟨hne, hmem⟩ := not_or.1 (mt List.mem_cons.2 hmem)
      exact .inl ⟨m, hm, hmem, by rw [addrBit_scanPosition h hn hm, if_neg hne, hbit]⟩
    · obtain rfl | hmem := List.mem_cons.1 hmem
      · exact .inl ⟨n, hn, hnotMem, by rw [addrBit_scanPosition h hn hn, if_pos rfl]; rfl⟩
      · exact .inr hmem

end

/-- A SEARCH whose line begins with presence starts its pass on the answers after it, having issued the reset and the
search command (R152, steps 2 and 3). -/
theorem startPass_of_presence {s : State} {rs : List Reply} (h : s.port.line = .scripted (.answer true :: rs)) :
    s.port.busReset.1 = true ∧ (s.port.busReset.2.busWriteByte Config.searchRom).line = .scripted rs ∧
      (s.port.busReset.2.busWriteByte Config.searchRom).drawn = s.port.drawn ∧
      (s.port.busReset.2.busWriteByte Config.searchRom).trace = s.port.trace ++ [.reset true, .writeByte 0xF0] := by
  rw [Port.busReset_scripted s.port h]
  exact ⟨rfl, rfl, rfl, List.append_assoc _ [_] [_]⟩

end Sys2Proof.Machine

/-! ## The statements of 20_memory.md -/

namespace Sys2Proof.Machine

/-- Settles O39: no answer pair fails the pass, and a position answered 1, 0 keeps the address from being zero. -/
theorem searchCompletesOnEveryAnswerSequence : Obligations.SearchCompletesOnEveryAnswerSequence := by
  intro s pairs rest hldf hlength hpairs hone hscript
  obtain ⟨hpresence, hline, hdrawn, htrace⟩ := startPass_of_presence (rs := pairReplies pairs ++ rest) hscript
  have hlen : pairs.length = positions.length := hlength.trans positions_length.symm
  have hstart : (startPass s (s.port.busReset.2.busWriteByte Config.searchRom)).awaits pairs rest :=
    ⟨rfl, hline, hpairs⟩
  have hend : (searchPass s).awaits [] rest := scan_awaits hlen hstart
  obtain ⟨hpassDrawn, bits, hbits, hpassTrace⟩ := scan_txns (ld := s.ld) hlen hstart
  obtain ⟨m, hbit⟩ :=
    scan_rom_has_one (ld := s.ld) hlen hstart positions_nodup (fun _ => mem_positions.1) (.inr hone)
  have hrom : (searchPass s).rom ≠ zeroAddr := fun hzero =>
    Bool.false_ne_true ((addrBit_zeroAddr m).symm.trans ((congrArg (addrBit · m) hzero).symm.trans hbit))
  refine ⟨search s, bits, exec_search s, ?_⟩
  rw [search_of_presence hldf hpresence, finishPass_port]
  refine ⟨finishPass_statusByte_of_ok s hend.ok hrom, hend.line, hpassDrawn.trans hdrawn, hbits, ?_⟩
  rw [searchPass, hpassTrace, startPass_port, htrace, List.append_assoc]
  rfl

/-- Settles O40: a SEARCH commutes with reading the timed-out replies of its line as the default value. -/
theorem timedOutRepliesReadAsZero : Obligations.TimedOutRepliesReadAsZero := by
  intro s t u rs ht hu
  obtain rfl := Host.Outcome.next.inj ((exec_search _).symm.trans ht)
  obtain rfl := Host.Outcome.next.inj ((exec_search _).symm.trans hu)
  exact setLine_of_eq_defaulted (search_defaulted { s with port := { s.port with line := .scripted rs } })

/-- Settles O47: the mode changes twice, around 0xF0, and every position ends in Command Mode. -/
theorem uartBytesOfAPass : Obligations.UartBytesOfAPass := by
  refine ⟨fun bits hbits => ?_, fun s t hldf ht => ?_⟩
  · obtain ⟨x, bits, rfl⟩ := List.exists_cons_of_ne_nil hbits
    have hcommand : uartBytes .command (passTxns (x :: bits)) =
        0xC1 :: 0xE1 :: ((BusTxn.writeByte 0xF0).payloadBytes ++
          uartBytes .data (positionTxns x ++ bits.flatMap positionTxns)) := rfl
    rw [hcommand, uartBytes_positionTxns_append, uartBytes_positions, BusTxn.payloadBytes, List.append_assoc]
    rfl
  · obtain rfl := Host.Outcome.next.inj ((exec_search s).symm.trans ht)
    exact search_mode hldf

end Sys2Proof.Machine

/-! PROOFS. The statements of 30_encoding.md: the encoder and the decoder are inverse to each other (R92, R94), which
packets are no command (R95), and the host's pseudo-instructions CHECK_SCRATCHPAD and DISCOVER (R99). -/

/-! ## 16-bit fields, low byte first (R51, R93) -/

namespace Sys2Proof

open Machine

theorem lowByte_append (b0 b1 : Byte) : lowByte (b1 ++ b0 : BitVec 16) = b0 := BitVec.setWidth_append_eq_right

theorem highByte_append (b0 b1 : Byte) : highByte (b1 ++ b0 : BitVec 16) = b1 := by
  have hjoin := high_append_low (b1 ++ b0)
  rw [lowByte_append] at hjoin
  exact (BitVec.append_left_inj b0).1 hjoin

/-- A 16-bit value is two bytes, low byte first (R51). -/
theorem exists_bytes_of_word16 (v : Word16) : ∃ b0 b1 : Byte, v = b1 ++ b0 :=
  ⟨lowByte v, highByte v, (high_append_low v).symm⟩

/-- A length that fits the `len` field is two bytes, low byte first (R93). -/
theorem exists_bytes_of_lt {len : Nat} (h : len < 65536) : ∃ b0 b1 : Byte, len = (b1 ++ b0 : BitVec 16).toNat := by
  obtain ⟨b0, b1, hv⟩ := exists_bytes_of_word16 (BitVec.ofNat 16 len)
  exact ⟨b0, b1, by rw [← hv, BitVec.toNat_ofNat, Nat.mod_eq_of_lt h]⟩

/-- What the encoder lays down for a 16-bit value (R51). -/
theorem toBytes_append (b0 b1 : Byte) : toBytes 2 (b1 ++ b0 : BitVec 16).toNat = [b0, b1] := by
  have hlow : BitVec.ofNat 8 (b1 ++ b0 : BitVec 16).toNat = b0 := lowByte_append b0 b1
  have hhigh : BitVec.ofNat 8 ((b1 ++ b0 : BitVec 16).toNat / 256) = b1 := by
    have hshift : (b1 ++ b0 : BitVec 16).toNat / 256 = ((b1 ++ b0 : BitVec 16) >>> 8).toNat := by
      rw [BitVec.toNat_ushiftRight, Nat.shiftRight_eq_div_pow]
    rw [hshift]
    exact highByte_append b0 b1
  rw [toBytes, toBytes, toBytes, hlow, hhigh]

/-- What the decoder reads from two bytes (R51). -/
theorem fromBytes_eq_append (b0 b1 : Byte) : fromBytes [b0, b1] = (b1 ++ b0 : BitVec 16).toNat := by
  rw [← toBytes_append, fromBytes_toBytes 2 _ (BitVec.isLt _)]

/-- The field at offset 1. -/
theorem memRead_one (op b0 b1 : Byte) (rest : Packet) :
    memRead (op :: b0 :: b1 :: rest) 1 2 = some (b1 ++ b0 : BitVec 16).toNat :=
  (memRead_append [op] [b0, b1] rest).trans (congrArg some (fromBytes_eq_append b0 b1))

/-- The field at offset 3. -/
theorem memRead_three (op s0 s1 b0 b1 : Byte) (rest : Packet) :
    memRead (op :: s0 :: s1 :: b0 :: b1 :: rest) 3 2 = some (b1 ++ b0 : BitVec 16).toNat :=
  (memRead_append [op, s0, s1] [b0, b1] rest).trans (congrArg some (fromBytes_eq_append b0 b1))

/-- A packet with a field at offset 1 has its two bytes there. -/
theorem exists_of_memRead_one {op : Byte} {bs : Packet} {v : Nat} (h : memRead (op :: bs) 1 2 = some v) :
    ∃ b0 b1 rest, bs = b0 :: b1 :: rest ∧ v = (b1 ++ b0 : BitVec 16).toNat := by
  match bs with
  | [] | [_] => simp [memRead] at h
  | b0 :: b1 :: rest => exact ⟨b0, b1, rest, rfl, Option.some.inj (h.symm.trans (memRead_one op b0 b1 rest))⟩

/-- A packet with a field at offset 3 has its two bytes there, after two others. -/
theorem exists_of_memRead_three {op : Byte} {bs : Packet} {v : Nat} (h : memRead (op :: bs) 3 2 = some v) :
    ∃ s0 s1 b0 b1 rest, bs = s0 :: s1 :: b0 :: b1 :: rest ∧ v = (b1 ++ b0 : BitVec 16).toNat := by
  match bs with
  | [] | [_] | [_, _] | [_, _, _] => simp [memRead] at h
  | s0 :: s1 :: b0 :: b1 :: rest =>
    exact ⟨s0, s1, b0, b1, rest, rfl, Option.some.inj (h.symm.trans (memRead_three op s0 s1 b0 b1 rest))⟩

end Sys2Proof

/-! ## The layout of each format (R92, R93) -/

namespace Sys2Proof

open Machine

section
variable {l0 l1 : Byte} {buf : List Byte}

theorem decode_formatB (hlen : buf.length = (l1 ++ l0 : BitVec 16).toNat) :
    decode (0x01 :: l0 :: l1 :: buf) = .ok (.crc8 buf) :=
  decodeB_eq_ok.2 ⟨_, memRead_one _ l0 l1 buf, by simp only [List.length_cons]; omega, rfl⟩

theorem encode_formatB (hlen : buf.length = (l1 ++ l0 : BitVec 16).toNat) :
    encode (.crc8 buf) = 0x01 :: l0 :: l1 :: buf := by
  rw [encode, hlen, toBytes_append]
  rfl

variable (s0 s1 : Byte)

theorem decode_formatS (hlen : buf.length = (l1 ++ l0 : BitVec 16).toNat) :
    decode (0x02 :: s0 :: s1 :: l0 :: l1 :: buf) = .ok (.crc16 (s1 ++ s0) buf) :=
  decodeS_eq_ok.2 ⟨_, _, memRead_one _ s0 s1 _, memRead_three _ s0 s1 l0 l1 buf,
    by simp only [List.length_cons]; omega, by rw [BitVec.ofNat_toNat, BitVec.setWidth_eq]; rfl⟩

theorem encode_formatS (hlen : buf.length = (l1 ++ l0 : BitVec 16).toNat) :
    encode (.crc16 (s1 ++ s0) buf) = 0x02 :: s0 :: s1 :: l0 :: l1 :: buf := by
  rw [encode, hlen, toBytes_append, toBytes_append]
  rfl

variable (q0 q1 : Byte)

theorem decode_formatC (hlen : buf.length = (l1 ++ l0 : BitVec 16).toNat) :
    decode (0x03 :: s0 :: s1 :: l0 :: l1 :: (buf ++ [q0, q1])) = .ok (.checkCrc16 (s1 ++ s0) buf q0 q1) := by
  refine decodeC_eq_ok.2 ⟨_, _, memRead_one _ s0 s1 _, memRead_three _ s0 s1 l0 l1 _, ?_, ?_⟩
  · simp only [List.length_cons, List.length_append, List.length_nil]
    omega
  · rw [BitVec.ofNat_toNat, BitVec.setWidth_eq, ← hlen]
    simp [byteAt, Nat.add_comm 5, Nat.add_comm 6, List.getD_eq_getElem?_getD]

theorem encode_formatC (hlen : buf.length = (l1 ++ l0 : BitVec 16).toNat) :
    encode (.checkCrc16 (s1 ++ s0) buf q0 q1) = 0x03 :: s0 :: s1 :: l0 :: l1 :: (buf ++ [q0, q1]) := by
  rw [encode, hlen, toBytes_append, toBytes_append]
  rfl

end

theorem decode_formatA (a : Addr) : decode (0x04 :: a.toList) = .ok (.checkAddr a) := by
  obtain ⟨⟨bytes⟩, hsize⟩ := a
  match bytes, hsize with
  | [_, _, _, _, _, _, _, _], _ => rfl

end Sys2Proof

/-! ## The encoder and the decoder are inverse to each other (R92, R94) -/

namespace Sys2Proof

/-- The decoder takes back what the encoder laid down for a well-formed command. -/
theorem decode_encode {i : Instr} (h : i.wellFormed = true) : decode (encode i) = .ok i := by
  cases i with
  | crc8 buf =>
    obtain ⟨l0, l1, hlen⟩ := exists_bytes_of_lt ((bufferFits_iff buf).1 h)
    rw [encode_formatB hlen, decode_formatB hlen]
  | crc16 seed buf =>
    obtain ⟨s0, s1, rfl⟩ := exists_bytes_of_word16 seed
    obtain ⟨l0, l1, hlen⟩ := exists_bytes_of_lt ((bufferFits_iff buf).1 h)
    rw [encode_formatS s0 s1 hlen, decode_formatS s0 s1 hlen]
  | checkCrc16 seed buf pair0 pair1 =>
    obtain ⟨s0, s1, rfl⟩ := exists_bytes_of_word16 seed
    obtain ⟨l0, l1, hlen⟩ := exists_bytes_of_lt ((bufferFits_iff buf).1 h)
    rw [encode_formatC s0 s1 _ _ hlen, decode_formatC s0 s1 _ _ hlen]
  | checkAddr addr => exact decode_formatA addr
  | search | resetSearch | targetFamily | getState => rfl

variable {i : Instr} {bs : Packet}

theorem encode_of_decodeB (h : decodeB (0x01 :: bs) = .ok i) : encode i = 0x01 :: bs := by
  obtain ⟨len, hmem, hlength, -⟩ := decodeB_eq_ok.1 h
  obtain ⟨l0, l1, buf, rfl, rfl⟩ := exists_of_memRead_one hmem
  have hlen : buf.length = (l1 ++ l0 : BitVec 16).toNat := by simp only [List.length_cons] at hlength; omega
  obtain rfl := Except.ok.inj ((decode_formatB hlen).symm.trans h)
  exact encode_formatB hlen

theorem encode_of_decodeS (h : decodeS (0x02 :: bs) = .ok i) : encode i = 0x02 :: bs := by
  obtain ⟨_, len, -, hmem, hlength, -⟩ := decodeS_eq_ok.1 h
  obtain ⟨s0, s1, l0, l1, buf, rfl, rfl⟩ := exists_of_memRead_three hmem
  have hlen : buf.length = (l1 ++ l0 : BitVec 16).toNat := by simp only [List.length_cons] at hlength; omega
  obtain rfl := Except.ok.inj ((decode_formatS s0 s1 hlen).symm.trans h)
  exact encode_formatS s0 s1 hlen

/-- A list two longer than `len` is `len` bytes and a pair. -/
theorem exists_append_pair {rest : List Byte} {len : Nat} (h : rest.length = len + 2) :
    ∃ buf q0 q1, rest = buf ++ [q0, q1] ∧ buf.length = len := by
  obtain ⟨q0, q1, hpair⟩ := List.length_eq_two.1 (show (rest.drop len).length = 2 by rw [List.length_drop]; omega)
  exact ⟨rest.take len, q0, q1, by rw [← hpair, List.take_append_drop], List.length_take_of_le (by omega)⟩

theorem encode_of_decodeC (h : decodeC (0x03 :: bs) = .ok i) : encode i = 0x03 :: bs := by
  obtain ⟨_, len, -, hmem, hlength, -⟩ := decodeC_eq_ok.1 h
  obtain ⟨s0, s1, l0, l1, rest, rfl, rfl⟩ := exists_of_memRead_three hmem
  obtain ⟨buf, q0, q1, rfl, hlen⟩ :=
    exists_append_pair (rest := rest) (len := (l1 ++ l0 : BitVec 16).toNat)
      (by simp only [List.length_cons] at hlength; omega)
  obtain rfl := Except.ok.inj ((decode_formatC s0 s1 q0 q1 hlen).symm.trans h)
  exact encode_formatC s0 s1 q0 q1 hlen

theorem encode_of_decodeA (h : decodeA (0x04 :: bs) = .ok i) : encode i = 0x04 :: bs := by
  obtain ⟨hlength, rfl⟩ := decodeA_eq_ok.1 h
  match bs, hlength with
  | [_, _, _, _, _, _, _, _], _ => rfl

theorem encode_of_decodeF (h : decodeF (0x12 :: bs) = .ok i) : encode i = 0x12 :: bs := by
  obtain ⟨hlength, rfl⟩ := decodeF_eq_ok.1 h
  match bs, hlength with
  | [_], _ => rfl

theorem eq_of_decodeN {c : Instr} {op : Byte} (h : decodeN c (op :: bs) = .ok i) : i = c ∧ bs = [] := by
  obtain ⟨hlength, rfl⟩ := decodeN_eq_ok.1 h
  exact ⟨rfl, List.length_eq_zero_iff.1 (Nat.succ.inj hlength)⟩

/-- The encoder lays down again what the decoder accepted. -/
theorem encode_of_decode {p : Packet} (h : decode p = .ok i) : encode i = p := by
  cases p with
  | nil => cases h
  | cons op bs =>
    obtain ⟨rfl, h⟩ | ⟨rfl, h⟩ | ⟨rfl, h⟩ | ⟨rfl, h⟩ | ⟨rfl, h⟩ | ⟨rfl, h⟩ | ⟨rfl, h⟩ | ⟨rfl, h⟩ := decode_cons_ok_cases h
    · exact encode_of_decodeB h
    · exact encode_of_decodeS h
    · exact encode_of_decodeC h
    · exact encode_of_decodeA h
    · obtain ⟨rfl, rfl⟩ := eq_of_decodeN h; rfl
    · obtain ⟨rfl, rfl⟩ := eq_of_decodeN h; rfl
    · exact encode_of_decodeF h
    · obtain ⟨rfl, rfl⟩ := eq_of_decodeN h; rfl

end Sys2Proof

/-! ## Packets that are no command (R95) -/

namespace Sys2Proof

open Machine

/-- The packet's length decides what a format's decoder answers: a command exactly when it is the implied length. -/
def answersByLength (p : Packet) (fmt : Format) (r : Except Reject Instr) : Prop :=
  (formatLength p fmt = some p.length ∧ ∃ i, r = .ok i) ∨
    (formatLength p fmt ≠ some p.length ∧ r = .error .malformed)

section
variable {p : Packet} {fmt : Format}

theorem answersByLength_of_length {len : Nat} (h : formatLength p fmt = some len) (i : Instr) :
    answersByLength p fmt (if p.length = len then .ok i else .error .malformed) := by
  by_cases hlen : p.length = len
  · exact .inl ⟨by rw [h, hlen], i, if_pos hlen⟩
  · exact .inr ⟨fun hlength => hlen (Option.some.inj (hlength.symm.trans h)), if_neg hlen⟩

theorem answersByLength_of_short (h : formatLength p fmt = none) : answersByLength p fmt (.error .malformed) :=
  .inr ⟨by rw [h]; nofun, rfl⟩

/-- A packet that holds the field at offset 3 holds the one at offset 1. -/
theorem memRead_one_of_three {len : Nat} (h : memRead p 3 2 = some len) : ∃ seed, memRead p 1 2 = some seed := by
  rw [memRead, Option.ite_none_right_eq_some] at h
  exact ⟨_, if_pos (by omega)⟩

variable (p)

theorem decodeB_answersByLength : answersByLength p .b (decodeB p) := by
  unfold decodeB
  cases hlen : memRead p 1 2 with
  | none => exact answersByLength_of_short (by rw [formatLength, hlen]; rfl)
  | some len => exact answersByLength_of_length (by rw [formatLength, hlen]; rfl) _

variable {p}

/-- A format with `seed` and `len` is decided by its `len` field at offset 3. -/
theorem answersByLength_of_lenField {L : Nat → Nat} {r : Except Reject Instr}
    (hfmt : formatLength p fmt = (memRead p 3 2).map L) (hshort : memRead p 3 2 = none → r = .error .malformed)
    (hfull : ∀ {seed len}, memRead p 1 2 = some seed → memRead p 3 2 = some len →
      ∃ i, r = if p.length = L len then .ok i else .error .malformed) : answersByLength p fmt r := by
  cases hlen : memRead p 3 2 with
  | none =>
    rw [hshort hlen]
    exact answersByLength_of_short (by rw [hfmt, hlen]; rfl)
  | some len =>
    obtain ⟨seed, hseed⟩ := memRead_one_of_three hlen
    obtain ⟨i, rfl⟩ := hfull hseed hlen
    exact answersByLength_of_length (by rw [hfmt, hlen]; rfl) i

variable (p)

theorem decodeS_answersByLength : answersByLength p .s (decodeS p) := by
  refine answersByLength_of_lenField (L := (5 + ·)) rfl (fun hshort => ?_) (fun hseed hlen => ?_)
  · cases hseed : memRead p 1 2 <;> rw [decodeS, hshort, hseed]
  · rw [decodeS, hseed, hlen]
    exact ⟨_, rfl⟩

theorem decodeC_answersByLength : answersByLength p .c (decodeC p) := by
  refine answersByLength_of_lenField (L := (7 + ·)) rfl (fun hshort => ?_) (fun hseed hlen => ?_)
  · cases hseed : memRead p 1 2 <;> rw [decodeC, hshort, hseed]
  · rw [decodeC, hseed, hlen]
    exact ⟨_, rfl⟩

end

variable {op : Byte} (bs : Packet)

/-- An undefined opcode is illegal, whatever follows it (R95). -/
theorem decode_of_undefined (h : op ∉ definedOpcodes) : decode (op :: bs) = .error .illegal := by
  simp only [definedOpcodes, List.mem_cons, List.not_mem_nil, or_false, not_or] at h
  simp only [decode, h, if_false]

theorem impliedLength_of_undefined (h : op ∉ definedOpcodes) : impliedLength (op :: bs) = none := by
  simp only [definedOpcodes, List.mem_cons, List.not_mem_nil, or_false, not_or] at h
  simp only [impliedLength, opcodeFormat, h, if_false, Option.bind_none]

/-- With a defined opcode the length decides (R95). -/
theorem decode_of_defined (h : op ∈ definedOpcodes) :
    (impliedLength (op :: bs) = some (op :: bs).length ∧ ∃ i, decode (op :: bs) = .ok i) ∨
    (impliedLength (op :: bs) ≠ some (op :: bs).length ∧ decode (op :: bs) = .error .malformed) := by
  simp only [definedOpcodes, List.mem_cons, List.not_mem_nil, or_false] at h
  obtain rfl | rfl | rfl | rfl | rfl | rfl | rfl | rfl := h
  · exact decodeB_answersByLength _
  · exact decodeS_answersByLength _
  · exact decodeC_answersByLength _
  · exact answersByLength_of_length (fmt := .a) rfl _
  · exact answersByLength_of_length (fmt := .n) rfl _
  · exact answersByLength_of_length (fmt := .n) rfl _
  · exact answersByLength_of_length (fmt := .f) rfl _
  · exact answersByLength_of_length (fmt := .n) rfl _

theorem decode_eq_illegal_iff {p : Packet} :
    decode p = .error .illegal ↔ ∃ op body, p = op :: body ∧ op ∉ definedOpcodes := by
  cases p with
  | nil => simp [decode]
  | cons op bs =>
    by_cases hop : op ∈ definedOpcodes
    · obtain ⟨-, i, hi⟩ | ⟨-, hr⟩ := decode_of_defined bs hop <;> simp [*]
    · simp [decode_of_undefined bs hop, hop]

theorem decode_eq_malformed_iff {p : Packet} :
    decode p = .error .malformed ↔
      p = [] ∨ ∃ op body, p = op :: body ∧ op ∈ definedOpcodes ∧ impliedLength p ≠ some p.length := by
  cases p with
  | nil => simp [decode]
  | cons op bs =>
    by_cases hop : op ∈ definedOpcodes
    · obtain ⟨hlength, i, hi⟩ | ⟨hlength, hr⟩ := decode_of_defined bs hop <;> simp_all
    · simp [decode_of_undefined bs hop, hop]

theorem exists_decode_eq_ok_iff {p : Packet} : (∃ i, decode p = .ok i) ↔ impliedLength p = some p.length := by
  cases p with
  | nil => simp [decode, impliedLength]
  | cons op bs =>
    by_cases hop : op ∈ definedOpcodes
    · obtain ⟨hlength, i, hi⟩ | ⟨hlength, hr⟩ := decode_of_defined bs hop <;> simp_all
    · simp [decode_of_undefined bs hop, impliedLength_of_undefined bs hop]

end Sys2Proof

/-! ## The statements of 30_encoding.md about packets -/

namespace Sys2Proof.Machine

/-- Settles O1: both sides have the same layout, format by format. -/
theorem decodeOfEncodeIsTheCommand : Obligations.DecodeOfEncodeIsTheCommand := fun _ => decode_encode

/-- Settles O2: what a format's decoder accepted has that format's layout. -/
theorem encodeOfDecodeIsThePacket : Obligations.EncodeOfDecodeIsThePacket :=
  fun _ _ h => ⟨wellFormed_of_decode h, encode_of_decode h⟩

/-- Settles O3: the opcode decides between ILLEGAL and the rest, the length between MALFORMED and a command. -/
theorem otherPacketsAreAnsweredByAStatus : Obligations.OtherPacketsAreAnsweredByAStatus :=
  ⟨fun _ => decode_eq_illegal_iff, fun _ => decode_eq_malformed_iff, fun _ => exists_decode_eq_ok_iff,
    fun _ _ _ hinputs hreject => (step_packet hinputs).trans (runPacket_reject _ hreject),
    fun _ _ _ hinputs hreject => (step_packet hinputs).trans (runPacket_reject _ hreject)⟩

/-- Settles O4, from the layout of each format. -/
theorem fieldsStandAtTheirOffsets : Obligations.FieldsStandAtTheirOffsets :=
  ⟨fun _ _ _ => decode_formatB, fun s0 s1 _ _ _ => decode_formatS s0 s1,
    fun s0 s1 _ _ q0 q1 _ => decode_formatC s0 s1 q0 q1, decode_formatA, fun _ => rfl, rfl, rfl, rfl⟩

/-- Settles O5: each packet is evaluated. -/
theorem writtenOutPacketsDecode : Obligations.WrittenOutPacketsDecode := ⟨rfl, rfl, rfl, rfl, rfl⟩

/-- Settles O7: `withFetchWord` puts the word's packet in front of the inputs, and the step takes it away again. -/
theorem tableWordIsTheNextCommand : Obligations.TableWordIsTheNextCommand := by
  intro s nbits w i h
  have hdecode : decode (tableWordPacket nbits w) = .ok i := by
    unfold decodeTableWord at h
    split at h
    · rwa [← Option.some.inj h]
    · cases h
  exact (step_packet rfl).trans (runPacket_ok _ hdecode)

end Sys2Proof.Machine

/-! ## CHECK_SCRATCHPAD: the residue of a CRC8 (R124, R125) -/

namespace Sys2Proof.Machine

/-- CRC8 takes a bit from the message as it takes one from the register: what counts is their XOR (R121). -/
theorem crc8Bit_xor_shift (crc v : Byte) :
    crc8Bit crc (v.getLsbD 0) ^^^ (v >>> 1) = crc8Bit (crc ^^^ v) false := by
  have hmix : (crc ^^^ v).getLsbD 0 = (crc.getLsbD 0 ^^ v.getLsbD 0) := BitVec.getLsbD_xor
  have hshift : (crc ^^^ v) >>> 1 = (crc >>> 1) ^^^ (v >>> 1) := BitVec.ushiftRight_xor_distrib crc v 1
  rw [crc8Bit, crc8Bit, hmix, hshift, Bool.xor_false]
  split
  · ac_rfl
  · rfl

/-- After `k` bits of a byte the register and the rest of the byte are `k` shifts of their XOR. -/
theorem foldl_crc8Bit_xor_shift (crc v : Byte) (k : Nat) :
    ((List.range k).map fun j => v.getLsbD j).foldl crc8Bit crc ^^^ (v >>> k) =
      Nat.repeat (crc8Bit · false) k (crc ^^^ v) := by
  induction k with
  | zero => simp [Nat.repeat]
  | succ k ih =>
    have hbit : v.getLsbD k = (v >>> k).getLsbD 0 := by rw [BitVec.getLsbD_ushiftRight, Nat.add_zero]
    rw [List.range_succ, List.map_append, List.foldl_append, Nat.repeat, ← ih, ← crc8Bit_xor_shift, List.map_singleton,
      List.foldl_cons, List.foldl_nil, hbit, BitVec.shiftRight_add]

/-- One byte of CRC8 is eight shifts of the register XOR the byte (R122). -/
theorem crc8Byte_eq_shifts (crc v : Byte) : crc8Byte crc v = Nat.repeat (crc8Bit · false) 8 (crc ^^^ v) := by
  rw [← foldl_crc8Bit_xor_shift, BitVec.ushiftRight_eq_zero (Nat.le_refl 8), BitVec.xor_zero, crc8Byte, byteBits]

/-- A shift keeps a non-zero register non-zero: the generator has bit 7, which no shifted register has. -/
theorem crc8Bit_false_eq_zero_iff (crc : Byte) : crc8Bit crc false = 0 ↔ crc = 0 := by
  revert crc
  decide

theorem repeat_crc8Bit_eq_zero_iff (k : Nat) (crc : Byte) : Nat.repeat (crc8Bit · false) k crc = 0 ↔ crc = 0 := by
  induction k with
  | zero => rfl
  | succ k ih => rw [Nat.repeat, crc8Bit_false_eq_zero_iff, ih]

/-- A byte leaves 0 in the register exactly when it is the CRC8 so far (R124 (c)). -/
theorem crc8Byte_eq_zero_iff (crc v : Byte) : crc8Byte crc v = 0 ↔ crc = v := by
  rw [crc8Byte_eq_shifts, repeat_crc8Bit_eq_zero_iff]
  exact BitVec.xor_eq_zero_iff

/-- The CRC8 of a buffer with one more byte is 0 exactly when that byte is the CRC8 of the buffer (R124, R125). -/
theorem crc8_append_singleton_eq_zero_iff (buf : List Byte) (v : Byte) : crc8 (buf ++ [v]) = 0 ↔ crc8 buf = v := by
  rw [crc8_eq_from, crc8From_append, ← crc8_eq_from, crc8From_cons, crc8From_nil, crc8Byte_eq_zero_iff]

/-- A record is its first eight bytes and the ninth. -/
theorem record_eq_append (record : Vector Byte 9) : record.toList = record.toList.take 8 ++ [record[8]] := by
  obtain ⟨⟨bytes⟩, hsize⟩ := record
  match bytes, hsize with
  | [_, _, _, _, _, _, _, _, _], _ => rfl

/-- The host's check of a record (R99): the CRC8 command changes the response alone, and the host compares its payload
with the ninth byte. -/
theorem checkScratchpad_eq (record : Vector Byte 9) (s : State) :
    checkScratchpad record s =
      (decide (crc8 (record.toList.take 8) = record[8]), s.respond .ok [crc8 (record.toList.take 8)]) := by
  have hcommand : hostCommand (.crc8 (record.toList.take 8)) s = s.respond .ok [crc8 (record.toList.take 8)] := rfl
  simp [checkScratchpad, hcommand]

/-- Settles O55: the record is eight bytes and their CRC8 exactly when its own CRC8 is 0. -/
theorem scratchpadCheckIsAZeroResidue : Obligations.ScratchpadCheckIsAZeroResidue := by
  intro record s
  have hresidue : crc8 record.toList = 0 ↔ crc8 (record.toList.take 8) = record[8] := by
    rw [← crc8_append_singleton_eq_zero_iff (record.toList.take 8), ← record_eq_append]
  rw [checkScratchpad_eq]
  exact ⟨decide_eq_true_iff.trans hresidue.symm, rfl⟩

end Sys2Proof.Machine

/-! ## The enumeration order (R171) -/

namespace Sys2Proof.Machine

/-- The bits of an address at the positions 1 to 64, to be compared lexicographically with 0 before 1. -/
def searchKey (x : Addr) : Lex (Fin 64 → Bool) := toLex fun i => addrBit x i.succ

theorem searchKey_injective : Function.Injective searchKey := by
  intro x y h
  refine addr_eq_of_addrBit fun m hm => ?_
  obtain ⟨i, rfl⟩ := Fin.exists_succ_eq.2 (Fin.pos_iff_ne_zero.1 hm)
  exact congrFun (toLex.injective h) i

/-- The order of R171 is the lexicographic order of the bits. -/
theorem searchBefore_iff_searchKey_lt {x y : Addr} : searchBefore x y ↔ searchKey x < searchKey y := by
  constructor
  · rintro ⟨n, hn, hagree, hx, hy⟩
    obtain ⟨i, rfl⟩ := Fin.exists_succ_eq.2 (Fin.pos_iff_ne_zero.1 hn)
    exact ⟨i, fun j hj => hagree j.succ (Fin.succ_pos j) (Fin.succ_lt_succ_iff.2 hj), Bool.lt_iff.2 ⟨hx, hy⟩⟩
  · rintro ⟨i, hagree, hlt⟩
    obtain ⟨hx, hy⟩ := Bool.lt_iff.1 hlt
    refine ⟨i.succ, Fin.succ_pos i, fun m hm hmi => ?_, hx, hy⟩
    obtain ⟨j, rfl⟩ := Fin.exists_succ_eq.2 (Fin.pos_iff_ne_zero.1 hm)
    exact hagree j (Fin.succ_lt_succ_iff.1 hmi)

theorem searchBefore_irrefl (x : Addr) : ¬ searchBefore x x := fun h => lt_irrefl _ (searchBefore_iff_searchKey_lt.1 h)

theorem searchBefore_trans {x y z : Addr} (h : searchBefore x y) (h' : searchBefore y z) : searchBefore x z :=
  searchBefore_iff_searchKey_lt.2
    ((searchBefore_iff_searchKey_lt.1 h).trans (searchBefore_iff_searchKey_lt.1 h'))

/-- `x` does not come after `y` in the order of R171, as a comparison to sort by. -/
noncomputable def searchLe (x y : Addr) : Bool := decide (searchKey x ≤ searchKey y)

theorem searchLe_iff {x y : Addr} : searchLe x y = true ↔ searchKey x ≤ searchKey y := decide_eq_true_iff

/-- A set of devices can be listed in the order of R171. -/
theorem exists_perm_pairwise_searchBefore {dev : List Addr} (h : dev.Nodup) :
    ∃ order : List Addr, order.Perm dev ∧ order.Pairwise searchBefore := by
  have htrans (x y z : Addr) (hxy : searchLe x y) (hyz : searchLe y z) : searchLe x z :=
    searchLe_iff.2 ((searchLe_iff.1 hxy).trans (searchLe_iff.1 hyz))
  have htotal (x y : Addr) : searchLe x y || searchLe y x := by
    rw [Bool.or_eq_true, searchLe_iff, searchLe_iff]
    exact le_total _ _
  have hstrict (x y : Addr) (hle : searchLe x y) (hne : x ≠ y) : searchBefore x y :=
    searchBefore_iff_searchKey_lt.2 (lt_of_le_of_ne (searchLe_iff.1 hle) (searchKey_injective.ne hne))
  have hperm : (dev.mergeSort searchLe).Perm dev := List.mergeSort_perm dev searchLe
  exact ⟨_, hperm, (List.pairwise_mergeSort htrans htotal dev).imp₂ hstrict (hperm.nodup_iff.2 h)⟩

end Sys2Proof.Machine

/-! ## A pass on the ideal bus (R155, R156, R172) -/

namespace Sys2Proof.Machine

/-- `x` and `y` agree on the positions 1 to `n-1`: `agreeBelow` for an `n` that may be 65, past the last position. -/
abbrev agreesBefore (x y : Addr) (n : Nat) : Prop := ∀ m : Position, 0 < m → m.val < n → addrBit x m = addrBit y m

theorem agreesBefore_symm {x y : Addr} {n : Nat} (h : agreesBefore x y n) : agreesBefore y x n :=
  fun m hm hmn => (h m hm hmn).symm

theorem agreesBefore_trans {x y z : Addr} {n : Nat} (h : agreesBefore x y n) (h' : agreesBefore y z n) :
    agreesBefore x z n :=
  fun m hm hmn => (h m hm hmn).trans (h' m hm hmn)

theorem agreesBefore_mono {x y : Addr} {n k : Nat} (h : agreesBefore x y n) (hk : k ≤ n) : agreesBefore x y k :=
  fun m hm hmk => h m hm (hmk.trans_le hk)

theorem agreesBefore_one (x y : Addr) : agreesBefore x y 1 :=
  fun _ hm hm' => absurd hm' (Nat.not_lt.2 hm)

theorem eq_of_agreesBefore {x y : Addr} (h : agreesBefore x y 65) : x = y :=
  addr_eq_of_addrBit fun m hm => h m hm m.isLt

theorem agreesBefore_succ {x y : Addr} {n : Position} (hn : 0 < n) :
    agreesBefore x y (n + 1) ↔ agreesBefore x y n ∧ addrBit x n = addrBit y n := by
  refine ⟨fun h => ⟨agreesBefore_mono h (Nat.le_succ _), h n hn (Nat.lt_succ_self _)⟩, ?_⟩
  intro ⟨hbelow, hat⟩ m hm hmn
  obtain hlt | heq := Nat.lt_succ_iff_lt_or_eq.1 hmn
  · exact hbelow m hm hlt
  · rw [heq, hat]

section
variable {n : Position} (rom : Addr) (d : Bool)

theorem addrBit_setAddrBit_self (hn : 0 < n) : addrBit (setAddrBit rom n d) n = d := by
  rw [addrBit_setAddrBit rom d hn (Nat.le_of_lt_succ n.isLt) hn, if_pos rfl]

theorem addrBit_setAddrBit_of_ne (hn : 0 < n) {m : Position} (hm : 0 < m) (hmn : m.val ≠ n.val) :
    addrBit (setAddrBit rom n d) m = addrBit rom m := by
  rw [addrBit_setAddrBit rom d hn (Nat.le_of_lt_succ n.isLt) hm, if_neg hmn]

theorem agreesBefore_setAddrBit (hn : 0 < n) : agreesBefore (setAddrBit rom n d) rom n :=
  fun _ hm hmn => addrBit_setAddrBit_of_ne rom d hn hm hmn.ne

end

/-- The devices that still take part at position `n` when the pass has written the bits of `rom` before it (R73). -/
def participants (dev : List Addr) (rom : Addr) (n : Nat) : List Addr :=
  dev.filter fun x => decide (agreesBefore x rom n)

section
variable {dev : List Addr} {rom x y : Addr}

theorem mem_participants {n : Nat} : x ∈ participants dev rom n ↔ x ∈ dev ∧ agreesBefore x rom n := by
  simp only [participants, List.mem_filter, decide_eq_true_iff]

theorem participants_one : participants dev rom 1 = dev :=
  List.filter_eq_self.2 fun x _ => decide_eq_true (agreesBefore_one x rom)

/-- Who takes part is decided by the bits below the position. -/
theorem participants_congr {n : Nat} (h : agreesBefore x y n) : participants dev x n = participants dev y n :=
  List.filter_congr fun _ _ => decide_eq_decide.2
    ⟨fun h' => agreesBefore_trans h' h, fun h' => agreesBefore_trans h' (agreesBefore_symm h)⟩

/-- Writing a bit drops the participants that disagree with it (R73). -/
theorem filter_participants {n : Position} (hn : 0 < n) (d : Bool) :
    (participants dev rom n).filter (fun x => addrBit x n == d) = participants dev (setAddrBit rom n d) (n + 1) := by
  have hbelow := agreesBefore_setAddrBit rom d hn
  rw [← participants_congr hbelow, participants, List.filter_filter]
  refine List.filter_congr fun x _ => ?_
  rw [Bool.eq_iff_iff, Bool.and_eq_true, beq_iff_eq, decide_eq_true_iff, decide_eq_true_iff, agreesBefore_succ hn,
    addrBit_setAddrBit_self rom d hn, and_comm]

/-- An untaken 1-branch is one that a participant could have taken (R172). -/
theorem branchLeft_iff {n : Position} :
    branchLeft dev x n ↔ 0 < n ∧ addrBit x n = false ∧ ∃ y ∈ participants dev x n, addrBit y n = true := by
  have hflip (y : Addr) : agreeBelow x y n ↔ agreesBefore y x n := ⟨agreesBefore_symm, agreesBefore_symm⟩
  simp only [branchLeft, mem_participants, hflip, and_assoc]

/-- Whether a branch is left at a position is decided by the bits up to it. -/
theorem branchLeft_congr {n : Position} (hn : 0 < n) (h : agreesBefore x y (n + 1)) :
    branchLeft dev x n ↔ branchLeft dev y n := by
  obtain ⟨hbelow, hat⟩ := (agreesBefore_succ hn).1 h
  rw [branchLeft_iff, branchLeft_iff, participants_congr hbelow, hat]

end

/-- The participants at a position on the way to `rom` disagree on its bit (R155). -/
def forkAt (dev : List Addr) (rom : Addr) (n : Position) : Prop :=
  ∃ x ∈ participants dev rom n, ∃ y ∈ participants dev rom n, addrBit x n ≠ addrBit y n

/-- Whether there is a discrepancy is decided by the bits below the position. -/
theorem forkAt_congr {dev : List Addr} {x y : Addr} {n : Position} (h : agreesBefore x y n) :
    forkAt dev x n ↔ forkAt dev y n := by
  rw [forkAt, forkAt, participants_congr h]

/-- The direction of R156 at a discrepancy. -/
def chosenBit (ld : Position) (old : Addr) (n : Position) : Bool :=
  if n < ld then addrBit old n else decide (n = ld)

theorem direction_eq (ld n : Position) (rom : Addr) (b c : Bool) :
    direction ld n rom b c = if discrepancy b c then chosenBit ld rom n else b := rfl

/-- `k` is the deepest untaken 1-branch before position `n` on the way to `x`, or 0 (R156, R172). -/
def resumesBefore (dev : List Addr) (x : Addr) (n : Nat) (k : Position) : Prop :=
  (k = 0 ∨ k.val < n ∧ branchLeft dev x k) ∧ ∀ m : Position, k < m → m.val < n → ¬ branchLeft dev x m

section
variable {dev : List Addr} {x y : Addr} {k : Position}

theorem resumesBefore_one : resumesBefore dev x 1 0 :=
  ⟨.inl rfl, fun _ hm hm' => absurd hm' (Nat.not_lt.2 hm)⟩

theorem resumesAt_of_resumesBefore (h : resumesBefore dev x 65 k) : resumesAt dev x k :=
  ⟨h.1.imp_right And.right, fun m hm => h.2 m hm m.isLt⟩

variable {n : Position}

/-- A branch left at position `n` is the deepest one so far. -/
theorem resumesBefore_succ_of_branch (h : branchLeft dev x n) : resumesBefore dev x (n + 1) n :=
  ⟨.inr ⟨Nat.lt_succ_self _, h⟩, fun _ hm hm' => absurd hm' (Nat.not_lt.2 hm)⟩

/-- With none left there, the deepest one before is still the deepest. -/
theorem resumesBefore_succ_of_not_branch (h : resumesBefore dev x n k) (hxy : agreesBefore x y n)
    (hnone : ¬ branchLeft dev y n) : resumesBefore dev y (n + 1) k := by
  have hcongr {m : Position} (hm : 0 < m) (hmn : m.val < n) : branchLeft dev x m ↔ branchLeft dev y m :=
    branchLeft_congr hm (agreesBefore_mono hxy hmn)
  obtain ⟨hk, hdeepest⟩ := h
  refine ⟨hk.imp_right fun ⟨hkn, hleft⟩ => ⟨hkn.trans (Nat.lt_succ_self _), (hcongr hleft.1 hkn).1 hleft⟩,
    fun m hm hmn => ?_⟩
  obtain hlt | heq := Nat.lt_succ_iff_lt_or_eq.1 hmn
  · exact (not_congr (hcongr ((Fin.zero_le k).trans_lt hm) hlt)).1 (hdeepest m hm hlt)
  · rwa [Fin.ext heq]

end

end Sys2Proof.Machine

/-! ### One position -/

namespace Sys2Proof.Machine

/-- What a position samples (R72): the participants agree and it reads their bit and the complement, or they disagree
and it reads 0 twice. -/
theorem wiredAnd_cases {bus : IdealBus} (hpart : bus.part ≠ []) :
    (∃ v, bus.wiredAnd false = v ∧ bus.wiredAnd true = !v ∧ ∀ x ∈ bus.part, addrBit x bus.pos = v) ∨
    (bus.wiredAnd false = false ∧ bus.wiredAnd true = false ∧
      (∃ x ∈ bus.part, addrBit x bus.pos = false) ∧ ∃ y ∈ bus.part, addrBit y bus.pos = true) := by
  obtain ⟨z, hz⟩ := List.exists_mem_of_ne_nil _ hpart
  by_cases hone : ∃ y ∈ bus.part, addrBit y bus.pos = true
  · by_cases hzero : ∃ x ∈ bus.part, addrBit x bus.pos = false
    · exact .inr ⟨by simpa [IdealBus.wiredAnd] using hzero, by simpa [IdealBus.wiredAnd] using hone, hzero, hone⟩
    · have hall : ∀ x ∈ bus.part, addrBit x bus.pos = true := by simpa using hzero
      exact .inl ⟨true, by simpa [IdealBus.wiredAnd] using hall,
        by simpa [IdealBus.wiredAnd] using hone, hall⟩
  · have hall : ∀ x ∈ bus.part, addrBit x bus.pos = false := by simpa using hone
    exact .inl ⟨false, by simpa [IdealBus.wiredAnd] using ⟨z, hz, hall z hz⟩,
      by simpa [IdealBus.wiredAnd] using hall, hall⟩

/-- A position of a pass on the ideal bus that still has participants is resolved from what they drive (R72, R155). -/
theorem scanPosition_ideal {ld n : Position} {p : Pass} {bus : IdealBus} (hline : p.port.line = .ideal bus)
    (hphase : bus.phase = .bit) (hpart : bus.part ≠ []) :
    ∃ port : Port, port.line = .ideal { bus with phase := .dir } ∧
      scanPosition ld n p = resolvePosition n (bus.wiredAnd false) (bus.wiredAnd true)
        (direction ld n p.rom (bus.wiredAnd false) (bus.wiredAnd true)) p port := by
  have hfirst := Port.busReadBit_ideal_bit p.port hline hphase
  have hsecond := Port.busReadBit_ideal_cmp p.port.busReadBit.2 (congrArg (·.2.line) hfirst) rfl
  have hresolve : (bus.wiredAnd false && bus.wiredAnd true) = false := by
    obtain ⟨v, hb, hc, -⟩ | ⟨hb, hc, -⟩ := wiredAnd_cases hpart <;> simp [hb, hc]
  refine ⟨p.port.busReadBit.2.busReadBit.2, congrArg (·.2.line) hsecond, ?_⟩
  have hb : p.port.busReadBit.1 = bus.wiredAnd false := congrArg (·.1) hfirst
  have hc : p.port.busReadBit.2.busReadBit.1 = bus.wiredAnd true := congrArg (·.1) hsecond
  rw [scanPosition_eq_resolve (by rw [hb, hc]; exact hresolve), hb, hc]

/-- The pass stands before position `n` on an ideal bus with these devices: it has written the bits of a device, each
discrepancy as R156 says, and `last_zero` is the deepest 1-branch it left. `ld` and `old` are `LD` and `ROM` at its
start. -/
structure Pass.tracks (dev : List Addr) (ld : Position) (old : Addr) (n : Nat) (p : Pass) : Prop where
  ok : p.ok = true
  line : p.port.line = .ideal { dev := dev, part := participants dev p.rom n, pos := n, phase := .bit }
  inhabited : participants dev p.rom n ≠ []
  unwritten : ∀ m : Position, n ≤ m.val → addrBit p.rom m = addrBit old m
  chosen : ∀ m : Position, 0 < m → m.val < n → forkAt dev p.rom m → addrBit p.rom m = chosenBit ld old m
  resumes : resumesBefore dev p.rom n p.lastZero

section
variable {dev : List Addr} {ld n : Position} {old : Addr} {p : Pass}

/-- Resolving position `n` to a bit that some participant has, and that R156 chooses at a discrepancy, leads to the next
position. -/
theorem Pass.tracks.resolve (h : p.tracks dev ld old n) (hn : 0 < n) {b c d : Bool} {port : Port}
    (hline : port.line = .ideal { dev := dev, part := participants dev p.rom n, pos := n, phase := .dir })
    (htaken : ∃ x ∈ participants dev p.rom n, addrBit x n = d)
    (hfork : forkAt dev p.rom n → d = chosenBit ld p.rom n)
    (hzero : zeroBranch b c d = true ↔ d = false ∧ ∃ y ∈ participants dev p.rom n, addrBit y n = true) :
    (resolvePosition n b c d p port).tracks dev ld old (n + 1) := by
  have hbelow := agreesBefore_setAddrBit p.rom d hn
  have hat := addrBit_setAddrBit_self p.rom d hn
  refine ⟨h.ok, ?_, ?_, fun m hm => ?_, fun m hm hmn hforkm => ?_, ?_⟩
  · rw [resolvePosition_port, Port.busWriteBit_ideal _ d hline, IdealBus.busWriteBit_dir d rfl, filter_participants hn]
    rfl
  · obtain ⟨x, hx, hxd⟩ := htaken
    refine List.ne_nil_of_mem (a := x) ?_
    rw [resolvePosition_rom, ← filter_participants hn]
    exact List.mem_filter.2 ⟨hx, beq_iff_eq.2 hxd⟩
  · rw [resolvePosition_rom, addrBit_setAddrBit_of_ne _ _ hn (hn.trans hm) (Nat.ne_of_gt hm)]
    exact h.unwritten m (Nat.le_of_succ_le hm)
  · rw [resolvePosition_rom] at hforkm ⊢
    rw [forkAt_congr (agreesBefore_mono hbelow (Nat.le_of_lt_succ hmn))] at hforkm
    obtain hlt | heq := Nat.lt_succ_iff_lt_or_eq.1 hmn
    · rw [hbelow m hm hlt]
      exact h.chosen m hm hlt hforkm
    · obtain rfl := Fin.ext heq
      rw [hat, hfork hforkm, chosenBit, chosenBit, h.unwritten m (Nat.le_refl _)]
  · have hbranch : branchLeft dev (setAddrBit p.rom n d) n ↔ zeroBranch b c d = true := by
      rw [branchLeft_iff, participants_congr hbelow, hat, hzero]
      exact and_iff_right hn
    rw [resolvePosition_rom, resolvePosition_lastZero, lastZeroAfter]
    split
    case isTrue hz => exact resumesBefore_succ_of_branch (hbranch.2 hz)
    case isFalse hz =>
      exact resumesBefore_succ_of_not_branch h.resumes (agreesBefore_symm hbelow) (mt hbranch.1 hz)

/-- One position leads to the next, whatever the participants drive (R155, R156). -/
theorem Pass.tracks.scanPosition (h : p.tracks dev ld old n) (hn : 0 < n) :
    (scanPosition ld n p).tracks dev ld old (n + 1) := by
  obtain ⟨port, hline, hscan⟩ := scanPosition_ideal (ld := ld) (n := n) h.line rfl h.inhabited
  rw [hscan]
  obtain ⟨v, hb, hc, hagree⟩ | ⟨hb, hc, ⟨x, hx, hxbit⟩, y, hy, hybit⟩ := wiredAnd_cases
    (bus := { dev := dev, part := participants dev p.rom n, pos := n, phase := .bit }) h.inhabited
  · obtain ⟨z, hz⟩ := List.exists_mem_of_ne_nil _ h.inhabited
    have hnone : discrepancy v (!v) = false := by cases v <;> rfl
    rw [hb, hc, direction_eq, hnone]
    refine h.resolve hn hline ⟨z, hz, hagree z hz⟩ (fun ⟨x, hx, y, hy, hne⟩ => ?_) ?_
    · exact absurd ((hagree x hx).trans (hagree y hy).symm) hne
    · rw [zeroBranch, hnone]
      refine ⟨fun h => absurd h Bool.false_ne_true, fun ⟨hv, y, hy, hyn⟩ => ?_⟩
      exact absurd (hv.symm.trans ((hagree y hy).symm.trans hyn)) Bool.false_ne_true
  · have hzero (d : Bool) : zeroBranch false false d = true ↔ d = false := by cases d <;> decide
    rw [hb, hc, direction_eq, if_pos (show discrepancy false false = true from rfl)]
    refine h.resolve hn hline ?_ (fun _ => rfl) ?_
    · cases hd : chosenBit ld p.rom n
      · exact ⟨x, hx, hxbit⟩
      · exact ⟨y, hy, hybit⟩
    · rw [hzero, and_iff_left ⟨y, hy, hybit⟩]

end

/-! ### The whole pass -/

/-- The positions of a pass ascend from 1 (R11). -/
theorem val_getElem_positions {i : Nat} (h : i < positions.length) : (positions[i]).val = i + 1 := by
  have hsucc : positions = (List.finRange 64).map Fin.succ := congrArg List.tail (List.finRange_succ (n := 64))
  simp [hsucc]

/-- What each position leads from one position to the next, a pass leads from the first past the last. -/
theorem scan_positions_induction {ld : Position} {M : Nat → Pass → Prop} (hok : ∀ {n p}, M n p → p.ok = true)
    (hstep : ∀ {n : Position} {p}, 0 < n → M n p → M (n + 1) (scanPosition ld n p)) {p : Pass} (h : M 1 p) :
    M 65 (scan ld positions p) := by
  have hdrop (k i : Nat) (hi : i + k = 64) (p : Pass) (h : M (i + 1) p) : M 65 (scan ld (positions.drop i) p) := by
    induction k generalizing i p with
    | zero =>
      obtain rfl : i = 64 := hi
      rwa [List.drop_eq_nil_of_le positions_length.le]
    | succ k ih =>
      have hlt : i < positions.length := by rw [positions_length]; omega
      have hval : (positions[i]).val = i + 1 := val_getElem_positions hlt
      have hnext : M (i + 1 + 1) (scanPosition ld positions[i] p) := by
        rw [← hval] at h ⊢
        exact hstep (mem_positions.1 (List.getElem_mem hlt)) h
      rw [List.drop_eq_getElem_cons hlt, scan_cons_ok (hok hnext)]
      exact ih (i + 1) (by omega) _ hnext
  exact hdrop 64 0 rfl p h

/-- A pass over an ideal bus starts with every device taking part (R71). -/
theorem startPass_tracks {s : State} {dev : List Addr} (hbus : s.onIdealBus dev) (hdev : dev ≠ []) :
    s.port.busReset.1 = true ∧
      (startPass s (s.port.busReset.2.busWriteByte Config.searchRom)).tracks dev s.ld s.rom 1 := by
  obtain ⟨bus, hline, rfl⟩ := hbus
  have hreset := Port.busReset_ideal s.port hline
  have hstart : (s.port.busReset.2.busWriteByte Config.searchRom).line =
      .ideal { dev := bus.dev, part := participants bus.dev s.rom 1, pos := 1, phase := .bit } := by
    rw [Port.busWriteByte_ideal _ _ (congrArg (·.2.line) hreset), IdealBus.busWriteByte_searchRom, participants_one]
    rfl
  refine ⟨?_, rfl, hstart, ?_, fun _ _ => rfl, fun m hm hm' _ => absurd hm' (Nat.not_lt.2 hm), resumesBefore_one⟩
  · rw [hreset]
    simpa using hdev
  · exact participants_one.symm ▸ hdev

/-- A complete pass over a non-zero address is written back and answered (R158, R159). -/
theorem finishPass_of_ok {p : Pass} (s : State) (hok : p.ok = true) (hrom : p.rom ≠ zeroAddr) :
    finishPass p s =
      (((s.setRom p.rom).setPort p.port).setSearch p.lastZero p.lfd (ldfAfter p.lastZero s.ldf)).respond .ok
        p.rom.toList := by
  rw [finishPass, if_pos hok, if_neg hrom]

/-- `LDF`, clear before the pass, is set exactly when the pass took no 0-branch (R158). -/
theorem ldfAfter_false (k : Position) : ldfAfter k false = decide (k = 0) := by
  by_cases h : k = 0 <;> simp [ldfAfter, h]

/-- What a SEARCH from `s` to `t` that returned a device of an ideal bus leaves behind (R155 to R159, R172). -/
structure State.returnsDevice (dev : List Addr) (s t : State) : Prop where
  mem : t.rom ∈ dev
  response : t.response = some (0x00 :: t.rom.toList)
  bus : t.onIdealBus dev
  ldf : t.ldf = decide (t.ld = 0)
  resumes : resumesAt dev t.rom t.ld
  chosen : ∀ m : Position, 0 < m → forkAt dev t.rom m → addrBit t.rom m = chosenBit s.ld s.rom m

/-- On an ideal bus with a device a SEARCH returns one (R172). -/
theorem search_returnsDevice {s : State} {dev : List Addr} (hdev : dev ≠ []) (hzero : zeroAddr ∉ dev)
    (hbus : s.onIdealBus dev) (hldf : s.ldf = false) : State.returnsDevice dev s (search s) := by
  obtain ⟨hpresence, hstart⟩ := startPass_tracks hbus hdev
  have hend : (searchPass s).tracks dev s.ld s.rom 65 :=
    scan_positions_induction (M := Pass.tracks dev s.ld s.rom) (fun h => h.ok) (fun hn h => h.scanPosition hn) hstart
  obtain ⟨x, hx⟩ := List.exists_mem_of_ne_nil _ hend.inhabited
  obtain ⟨hxdev, hxrom⟩ := mem_participants.1 hx
  have hmem : (searchPass s).rom ∈ dev := eq_of_agreesBefore hxrom ▸ hxdev
  have hrom : (searchPass s).rom ≠ zeroAddr := fun h => hzero (h ▸ hmem)
  rw [search_of_presence hldf hpresence, finishPass_of_ok s hend.ok hrom, hldf]
  exact ⟨hmem, rfl, ⟨_, hend.line, rfl⟩, ldfAfter_false _, resumesAt_of_resumesBefore hend.resumes,
    fun m hm => hend.chosen m hm m.isLt⟩

end Sys2Proof.Machine

/-! ### The successor (R171, R172) -/

namespace Sys2Proof.Machine

/-- Before position `n` two devices that differ at `n` and agree with `rom` below it are a discrepancy there. -/
theorem forkAt_of_ne {dev : List Addr} {rom x y : Addr} {n : Position} (hx : x ∈ dev) (hy : y ∈ dev)
    (hxrom : agreesBefore x rom n) (hyrom : agreesBefore y rom n) (hne : addrBit x n ≠ addrBit y n) :
    forkAt dev rom n :=
  ⟨x, mem_participants.2 ⟨hx, hxrom⟩, y, mem_participants.2 ⟨hy, hyrom⟩, hne⟩

/-- Where R156 chooses the 1-branch at a discrepancy. -/
theorem chosenBit_eq_true {ld n : Position} {old : Addr} (h : chosenBit ld old n = true) :
    n < ld ∧ addrBit old n = true ∨ n = ld := by
  rw [chosenBit] at h
  split at h
  case isTrue hlt => exact .inl ⟨hlt, h⟩
  case isFalse => exact .inr (of_decide_eq_true h)

/-- A SEARCH can go on from this state: no pass was made yet, or the last one returned the device in `ROM` and left
`LD` where the enumeration resumes (R172). -/
def State.resumable (dev : List Addr) (s : State) : Prop :=
  s.ld = 0 ∨ s.rom ∈ dev ∧ resumesAt dev s.rom s.ld

/-- The devices an enumeration has yet to return (R171). -/
def State.ahead (s : State) (z : Addr) : Prop := s.ldf = false ∧ (s.ld = 0 ∨ searchBefore s.rom z)

section
variable {dev : List Addr} {s t : State}

/-- A device that comes after `x` leaves a 1-branch untaken on the way to `x` (R172). -/
theorem branchLeft_of_searchBefore {x z : Addr} (hz : z ∈ dev) (h : searchBefore x z) :
    ∃ n : Position, agreeBelow x z n ∧ addrBit z n = true ∧ branchLeft dev x n := by
  obtain ⟨n, hn, hagree, hx, hzn⟩ := h
  exact ⟨n, hagree, hzn, hn, hx, z, hz, hagree, hzn⟩

/-- A SEARCH that resumes at `LD` repeats the bits below it and takes the 1-branch there (R156). -/
theorem State.returnsDevice.rom_at_ld (h : s.returnsDevice dev t) (hrom : s.rom ∈ dev)
    (hbranch : branchLeft dev s.rom s.ld) : agreesBefore t.rom s.rom s.ld ∧ addrBit t.rom s.ld = true := by
  obtain ⟨hld, hzero, y, hy, hagree, hone⟩ := hbranch
  have hbelow (k : Nat) (hk : k ≤ s.ld.val) : agreesBefore t.rom s.rom k := by
    induction k with
    | zero => exact fun m _ hm => absurd hm (Nat.not_lt_zero _)
    | succ k ih =>
      intro m hm hmk
      have hmld : m < s.ld := hmk.trans_le hk
      have hprev : agreesBefore t.rom s.rom m := agreesBefore_mono (ih (Nat.le_of_succ_le hk)) (Nat.le_of_lt_succ hmk)
      by_contra hne
      have hfork := forkAt_of_ne h.mem hrom (fun _ _ _ => rfl) (agreesBefore_symm hprev) hne
      exact hne ((h.chosen m hm hfork).trans (if_pos hmld))
  have hat := hbelow s.ld (Nat.le_refl _)
  have hfork : forkAt dev t.rom s.ld :=
    forkAt_of_ne hrom hy (agreesBefore_symm hat) (agreesBefore_symm (agreesBefore_trans hat hagree))
      (by rw [hzero, hone]; exact Bool.false_ne_true)
  refine ⟨hat, ?_⟩
  rw [h.chosen s.ld hld hfork, chosenBit, if_neg (lt_irrefl _), decide_eq_true rfl]

/-- The device a SEARCH returns was ahead. -/
theorem State.returnsDevice.ahead (h : s.returnsDevice dev t) (hldf : s.ldf = false) (hs : s.resumable dev) :
    s.ahead t.rom := by
  obtain hld | ⟨hrom, hresume, -⟩ := hs
  · exact ⟨hldf, .inl hld⟩
  · refine ⟨hldf, hresume.imp_right fun hbranch => ?_⟩
    obtain ⟨hbelow, hone⟩ := h.rom_at_ld hrom hbranch
    exact ⟨s.ld, hbranch.1, agreesBefore_symm hbelow, hbranch.2.1, hone⟩

/-- No device that was ahead comes before the one a SEARCH returns (R171): at the first difference the SEARCH took a
1-branch, so it was repeating `ROM` or turning at `LD`, and the other device stays on the side of `ROM`. -/
theorem State.returnsDevice.least (h : s.returnsDevice dev t) (hs : s.resumable dev) {z : Addr} (hz : z ∈ dev)
    (hahead : s.ahead z) : ¬ searchBefore z t.rom := by
  rintro ⟨n, hn, hagree, hzero, hone⟩
  have hfork : forkAt dev t.rom n :=
    forkAt_of_ne hz h.mem hagree (fun _ _ _ => rfl) (by rw [hzero, hone]; exact Bool.false_ne_true)
  have hturn := chosenBit_eq_true ((h.chosen n hn hfork).symm.trans hone)
  have hnld : n ≤ s.ld := hturn.elim (fun hlt => hlt.1.le) le_of_eq
  have hld : s.ld ≠ 0 := (hn.trans_le hnld).ne'
  obtain ⟨hrom, hresume, hdeepest⟩ := hs.resolve_left hld
  obtain ⟨hbelow, -⟩ := h.rom_at_ld hrom (hresume.resolve_left hld)
  have hzrom : agreesBefore z s.rom n := agreesBefore_trans hagree (agreesBefore_mono hbelow hnld)
  obtain ⟨i, hzi, hzone, hleft⟩ := branchLeft_of_searchBefore hz (hahead.2.resolve_left hld)
  have hromi : addrBit s.rom i = false := hleft.2.1
  have hild : i ≤ s.ld := le_of_not_gt fun hlt => hdeepest i hlt hleft
  obtain hin | rfl | hni := lt_trichotomy i n
  · have hsame := hzrom i hleft.1 hin
    rw [hzone, hromi] at hsame
    exact Bool.false_ne_true hsame.symm
  · exact Bool.false_ne_true (hzero.symm.trans hzone)
  · obtain ⟨-, hold⟩ := hturn.resolve_right (hni.trans_le hild).ne
    exact Bool.false_ne_true (hzero.symm.trans ((hzi n hn hni).symm.trans hold))

end

end Sys2Proof.Machine

/-! ## DISCOVER (R99, R170) -/

namespace Sys2Proof.Machine

/-- The block is in an enumeration of an ideal bus that has yet to return the devices `rest`, in this order (R171). -/
structure State.enumerates (dev rest : List Addr) (s : State) : Prop where
  bus : s.onIdealBus dev
  resumable : s.resumable dev
  ordered : rest.Pairwise searchBefore
  mem : ∀ z, z ∈ rest ↔ z ∈ dev ∧ s.ahead z

/-- RESET_SEARCH begins an enumeration of all devices (R160, R170). -/
theorem enumerates_of_resetSearch {s : State} {dev order : List Addr} (hbus : s.onIdealBus dev)
    (hperm : order.Perm dev) (hordered : order.Pairwise searchBefore) :
    (hostCommand .resetSearch s).enumerates dev order :=
  ⟨hbus, .inl rfl, hordered, fun _ => hperm.mem_iff.trans (and_iff_left ⟨rfl, .inl rfl⟩).symm⟩

section
variable {dev : List Addr} {s t : State}

/-- After a SEARCH that returned a device those after it are ahead, and no others (R172). -/
theorem State.returnsDevice.ahead_iff (h : s.returnsDevice dev t) {z : Addr} (hz : z ∈ dev) :
    t.ahead z ↔ searchBefore t.rom z := by
  have hldf : t.ldf = false ↔ t.ld ≠ 0 := by rw [h.ldf, decide_eq_false_iff_not]
  rw [State.ahead, hldf]
  refine ⟨fun ⟨hld, hor⟩ => hor.resolve_left hld, fun hbefore => ⟨fun hld => ?_, .inr hbefore⟩⟩
  obtain ⟨n, -, -, hleft⟩ := branchLeft_of_searchBefore hz hbefore
  exact h.resumes.2 n (hld.trans_lt hleft.1) hleft

/-- What comes after a device that is ahead is ahead as well. -/
theorem State.ahead.of_searchBefore {x z : Addr} (h : s.ahead x) (hxz : searchBefore x z) : s.ahead z :=
  ⟨h.1, h.2.imp_right fun hbefore => searchBefore_trans hbefore hxz⟩

/-- A SEARCH returns the first of the devices that are left and leaves the others (R171, R172). -/
theorem State.enumerates.search_cons {x : Addr} {rest : List Addr} (hzero : zeroAddr ∉ dev)
    (h : s.enumerates dev (x :: rest)) :
    (search s).enumerates dev rest ∧ (search s).response = some (0x00 :: x.toList) := by
  obtain ⟨hxdev, hxahead⟩ := (h.mem x).1 List.mem_cons_self
  obtain ⟨hfirst, hordered⟩ := List.pairwise_cons.1 h.ordered
  have hreturns := search_returnsDevice (List.ne_nil_of_mem hxdev) hzero h.bus hxahead.1
  have hrom : (search s).rom = x := by
    have hleft := (h.mem _).2 ⟨hreturns.mem, hreturns.ahead hxahead.1 h.resumable⟩
    exact (List.mem_cons.1 hleft).resolve_right fun hrest =>
      hreturns.least h.resumable hxdev hxahead (hfirst _ hrest)
  refine ⟨⟨hreturns.bus, .inr ⟨hreturns.mem, hreturns.resumes⟩, hordered, fun z => ?_⟩, hrom ▸ hreturns.response⟩
  refine ⟨fun hz => ?_, fun ⟨hz, hahead⟩ => ?_⟩
  · have hzdev := ((h.mem z).1 (List.mem_cons_of_mem x hz)).1
    exact ⟨hzdev, (hreturns.ahead_iff hzdev).2 (hrom ▸ hfirst z hz)⟩
  · have hxz : searchBefore x z := hrom ▸ (hreturns.ahead_iff hz).1 hahead
    refine (List.mem_cons.1 ((h.mem z).2 ⟨hz, hxahead.of_searchBefore hxz⟩)).resolve_left ?_
    rintro rfl
    exact searchBefore_irrefl z hxz

/-- With no device left a SEARCH returns none: the terminal flag is set, or there was no device at all (R153, R154). -/
theorem State.enumerates.search_nil (hzero : zeroAddr ∉ dev) (h : s.enumerates dev []) :
    (search s).found = false := by
  cases hldf : s.ldf with
  | true => rw [search_of_ldf hldf]; rfl
  | false =>
    cases dev with
    | nil =>
      obtain ⟨bus, hline, hnone⟩ := h.bus
      have hpresence : s.port.busReset.1 = false := by rw [Port.busReset_ideal _ hline, hnone]; rfl
      rw [search_of_no_presence hldf hpresence]
      rfl
    | cons x dev =>
      have hreturns := search_returnsDevice (List.cons_ne_nil x dev) hzero h.bus hldf
      exact absurd ((h.mem _).2 ⟨hreturns.mem, hreturns.ahead hldf h.resumable⟩) List.not_mem_nil

theorem discoverLoop_of_not_found (limit : Nat) (h : (search s).found = false) :
    discoverLoop (limit + 1) s = ([], search s) := if_neg (ne_true_of_eq_false h)

theorem discoverLoop_of_response (limit : Nat) {address : List Byte}
    (h : (search s).response = some (0x00 :: address)) :
    discoverLoop (limit + 1) s =
      (address :: (discoverLoop limit (search s)).1, (discoverLoop limit (search s)).2) := by
  have hfound : (search s).found = true := by rw [State.found, State.statusByte, h]; rfl
  have hpayload : (search s).payload = address := by rw [State.payload, h]; rfl
  rw [← hpayload]
  exact if_pos hfound

/-- The loop lists the devices that are left, for every bound above their number (R99). -/
theorem State.enumerates.discoverLoop_eq {rest : List Addr} (hzero : zeroAddr ∉ dev) (h : s.enumerates dev rest) :
    ∃ t : State, t.found = false ∧
      ∀ limit : Nat, rest.length < limit → discoverLoop limit s = (rest.map (·.toList), t) := by
  induction rest generalizing s with
  | nil =>
    have hnone := h.search_nil hzero
    refine ⟨search s, hnone, fun limit hlimit => ?_⟩
    obtain ⟨limit, rfl⟩ := Nat.exists_eq_add_one_of_ne_zero (Nat.ne_of_gt hlimit)
    exact discoverLoop_of_not_found limit hnone
  | cons x rest ih =>
    obtain ⟨hnext, hresponse⟩ := h.search_cons hzero
    obtain ⟨t, hfound, hloop⟩ := ih hnext
    refine ⟨t, hfound, fun limit hlimit => ?_⟩
    obtain ⟨limit, rfl⟩ := Nat.exists_eq_add_one_of_ne_zero (Nat.ne_zero_of_lt hlimit)
    rw [discoverLoop_of_response limit hresponse, hloop limit (Nat.lt_of_succ_lt_succ hlimit), List.map_cons]

end

/-- Settles O54: RESET_SEARCH begins an enumeration of all devices, and the loop lists those that are left. -/
theorem discoverListsEveryDevice : Obligations.DiscoverListsEveryDevice := by
  intro s dev ⟨hnodup, hzero⟩ hbus
  obtain ⟨order, hperm, hordered⟩ := exists_perm_pairwise_searchBefore hnodup
  obtain ⟨t, hfound, hloop⟩ := (enumerates_of_resetSearch hbus hperm hordered).discoverLoop_eq hzero
  exact ⟨order, t, hperm, hordered, fun limit hlimit => ⟨hloop limit (hperm.length_eq ▸ hlimit), hfound⟩⟩

end Sys2Proof.Machine

/-! PROOFS. The statements of 40_crc.md. Both CRCs are one machine, a shift register with feedback, of width 8 with
0x8C and of width 16 with 0xA001; what the statements need of it is proved once, for every width and feedback word. -/

/-! ## The feedback shift register (R121, R126) -/

namespace Sys2Proof.Machine

/-- A byte with one bit flipped is another byte. -/
theorem xor_one_shiftLeft_ne (b : Byte) {j : Nat} (hj : j < 8) : b ^^^ (1#8 <<< j) ≠ b := by
  intro h
  have hmask : 1#8 <<< j = 0#8 := (BitVec.xor_right_inj b).1 (h.trans BitVec.xor_zero.symm)
  rw [← BitVec.twoPow_eq] at hmask
  simpa [hj] using congrArg (BitVec.getLsbD · j) hmask

section
variable {w : Nat} (g : BitVec w)

/-- One shift of a register with feedback `g`: R126's shift, and R121's on a zero bit. -/
def shiftReg (v : BitVec w) : BitVec w := (v >>> 1) ^^^ if v.getLsbD 0 then g else 0

/-- The register takes a byte: XOR into its low bits, then eight shifts. -/
def absorbByte (v : BitVec w) (b : Byte) : BitVec w := (shiftReg g)^[8] (v ^^^ b.setWidth w)

/-- The register takes a buffer. -/
def absorb (v : BitVec w) (buf : List Byte) : BitVec w := buf.foldl (absorbByte g) v

@[simp] theorem absorb_nil (v : BitVec w) : absorb g v [] = v := rfl

@[simp] theorem absorb_cons (v : BitVec w) (b : Byte) (buf : List Byte) :
    absorb g v (b :: buf) = absorb g (absorbByte g v b) buf := rfl

theorem absorb_append (v : BitVec w) (a b : List Byte) : absorb g v (a ++ b) = absorb g (absorb g v a) b :=
  List.foldl_append

theorem getLsbD_shiftReg (v : BitVec w) (i : Nat) :
    (shiftReg g v).getLsbD i = (v.getLsbD (i + 1) ^^ (v.getLsbD 0 && g.getLsbD i)) := by
  rw [shiftReg, BitVec.getLsbD_xor, BitVec.getLsbD_ushiftRight, Nat.add_comm 1 i]
  cases v.getLsbD 0 <;> simp

theorem shiftReg_eq_ite (v : BitVec w) : shiftReg g v = if v.getLsbD 0 then (v >>> 1) ^^^ g else v >>> 1 := by
  rw [shiftReg]
  split
  · rfl
  · exact BitVec.xor_zero

theorem shiftReg_of_even {v : BitVec w} (h : v.getLsbD 0 = false) : shiftReg g v = v >>> 1 := by
  rw [shiftReg_eq_ite, if_neg (ne_true_of_eq_false h)]

/-! ### The register is linear over XOR -/

theorem shiftReg_xor (u v : BitVec w) : shiftReg g (u ^^^ v) = shiftReg g u ^^^ shiftReg g v := by
  refine BitVec.eq_of_getLsbD_eq fun i _ => ?_
  simp only [BitVec.getLsbD_xor, getLsbD_shiftReg, Bool.and_xor_distrib_right, Bool.xor_assoc, Bool.xor_left_comm]

theorem shiftReg_zero : shiftReg g 0 = 0 := by simp [shiftReg]

theorem iterate_shiftReg_xor (k : Nat) (u v : BitVec w) :
    (shiftReg g)^[k] (u ^^^ v) = (shiftReg g)^[k] u ^^^ (shiftReg g)^[k] v :=
  Function.Semiconj₂.iterate (op := (· ^^^ ·)) (shiftReg_xor g) k u v

theorem absorbByte_xor (u v : BitVec w) (a b : Byte) :
    absorbByte g (u ^^^ v) (a ^^^ b) = absorbByte g u a ^^^ absorbByte g v b := by
  simp only [absorbByte, ← iterate_shiftReg_xor, BitVec.setWidth_xor]
  congr 1
  ac_rfl

/-- The register after the XOR of two buffers of one length, from the XOR of two values. -/
theorem absorb_xorBytes {a b : List Byte} (u v : BitVec w) (h : a.length = b.length) :
    absorb g (u ^^^ v) (xorBytes a b) = absorb g u a ^^^ absorb g v b := by
  induction a generalizing b u v with
  | nil =>
    obtain rfl := List.length_eq_zero_iff.1 h.symm
    rfl
  | cons x a ih =>
    obtain ⟨y, b, rfl⟩ := List.exists_cons_of_length_eq_add_one h.symm
    calc absorb g (u ^^^ v) (xorBytes (x :: a) (y :: b))
      _ = absorb g (absorbByte g u x ^^^ absorbByte g v y) (xorBytes a b) := by rw [← absorbByte_xor]; rfl
      _ = absorb g u (x :: a) ^^^ absorb g v (y :: b) := ih _ _ (Nat.succ.inj h)

theorem absorbByte_zero : absorbByte g 0 0 = 0 := by
  simpa [absorbByte] using Function.iterate_fixed (shiftReg_zero g) 8

theorem absorb_replicate_zero (n : Nat) : absorb g 0 (List.replicate n 0) = 0 := by
  induction n with
  | zero => rfl
  | succ n ih => rw [List.replicate_succ, absorb_cons, absorbByte_zero, ih]

/-! ### Low bits that are 0 are shifted out without feedback -/

theorem iterate_shiftReg_of_low_zero {k : Nat} {v : BitVec w} (h : ∀ i < k, v.getLsbD i = false) :
    (shiftReg g)^[k] v = v >>> k := by
  induction k with
  | zero => simp
  | succ k ih =>
    have hbit : (v >>> k).getLsbD 0 = false := by
      rw [BitVec.getLsbD_ushiftRight]
      exact h k (Nat.lt_succ_self k)
    rw [Function.iterate_succ_apply', ih fun i hi => h i (Nat.lt_succ_of_lt hi), shiftReg_of_even g hbit,
      BitVec.shiftRight_add]

/-! ### No shift loses information -/

section
variable {g} (hg : g.getLsbD (w - 1) = true)
include hg

/-- The top bit after a shift tells whether the feedback was applied, so the register before it is determined. -/
theorem shiftReg_injective : Function.Injective (shiftReg g) := by
  intro u v h
  have hbit (i : Nat) : (u.getLsbD (i + 1) ^^ (u.getLsbD 0 && g.getLsbD i)) =
      (v.getLsbD (i + 1) ^^ (v.getLsbD 0 && g.getLsbD i)) := by
    rw [← getLsbD_shiftReg, h, getLsbD_shiftReg]
  have hlow : u.getLsbD 0 = v.getLsbD 0 := by
    have htop (x : BitVec w) : x.getLsbD (w - 1 + 1) = false := BitVec.getLsbD_of_ge x _ (by omega)
    simpa [hg, htop] using hbit (w - 1)
  refine BitVec.eq_of_getLsbD_eq fun i _ => ?_
  cases i with
  | zero => exact hlow
  | succ i => simpa [hlow] using hbit i

theorem absorbByte_left_injective (b : Byte) : Function.Injective (absorbByte g · b) :=
  fun _ _ h => (BitVec.xor_left_inj _).1 ((shiftReg_injective hg).iterate 8 h)

theorem absorb_injective (buf : List Byte) : Function.Injective (absorb g · buf) := by
  induction buf with
  | nil => exact fun _ _ h => h
  | cons b buf ih => exact ih.comp (absorbByte_left_injective hg b)

theorem absorbByte_right_injective (hw : 8 ≤ w) (v : BitVec w) : Function.Injective (absorbByte g v) := by
  intro a b h
  have hwide : a.setWidth w = b.setWidth w := (BitVec.xor_right_inj v).1 ((shiftReg_injective hg).iterate 8 h)
  have hnarrow := congrArg (BitVec.setWidth 8) hwide
  rwa [BitVec.setWidth_setWidth_of_le _ hw, BitVec.setWidth_setWidth_of_le _ hw, BitVec.setWidth_eq,
    BitVec.setWidth_eq] at hnarrow

/-- The bytes before a flipped bit give one register, the byte with it two, and the bytes after it keep them apart. -/
theorem absorb_flipBit_ne (hw : 8 ≤ w) (v : BitVec w) {buf : List Byte} {k j : Nat} (hk : k < buf.length)
    (hj : j < 8) : absorb g v (flipBit buf k j) ≠ absorb g v buf := by
  induction buf generalizing v k with
  | nil => cases hk
  | cons b buf ih =>
    cases k with
    | zero =>
      intro h
      exact xor_one_shiftLeft_ne b hj (absorbByte_right_injective hg hw v (absorb_injective hg buf h))
    | succ k => exact ih (absorbByte g v b) (Nat.lt_of_succ_lt_succ hk)

end

end

end Sys2Proof.Machine

/-! ## CRC8 is the register of width 8 with 0x8C (R121 to R123) -/

namespace Sys2Proof.Machine

theorem natRepeat_eq_iterate {α : Type} (f : α → α) (n : Nat) (a : α) : Nat.repeat f n a = f^[n] a := by
  induction n with
  | zero => rfl
  | succ n ih => rw [Nat.repeat, ih, Function.iterate_succ_apply']

theorem crc8Bit_false (crc : Byte) : crc8Bit crc false = shiftReg 0x8C crc := by
  rw [crc8Bit, Bool.xor_false, shiftReg_eq_ite]

theorem crc8Byte_eq_absorbByte (crc v : Byte) : crc8Byte crc v = absorbByte 0x8C crc v := by
  rw [crc8Byte_eq_shifts, funext crc8Bit_false, natRepeat_eq_iterate, absorbByte, BitVec.setWidth_eq]

theorem crc8From_eq_absorb (crc : Byte) (buf : List Byte) : crc8From crc buf = absorb 0x8C crc buf := by
  rw [crc8From, funext₂ crc8Byte_eq_absorbByte, absorb]

theorem crc8_eq_absorb (buf : List Byte) : crc8 buf = absorb 0x8C 0 buf := crc8From_eq_absorb 0 buf

/-- The 256 entries of the table, each against its eight shifts (R122). -/
theorem t8_eq_iterate (i : Byte) : t8 i = (shiftReg 0x8C)^[8] i := by
  revert i
  decide +kernel

theorem crc8Byte_eq_t8 (crc v : Byte) : crc8Byte crc v = t8 (crc ^^^ v) := by
  rw [crc8Byte_eq_absorbByte, t8_eq_iterate, absorbByte, BitVec.setWidth_eq]

/-- The loop of R122, started at any value. -/
theorem foldl_t8_eq_crc8From (crc : Byte) (buf : List Byte) :
    buf.foldl (fun crc v => t8 (crc ^^^ v)) crc = crc8From crc buf := by
  rw [crc8From, funext₂ crc8Byte_eq_t8]

theorem crc8Table_eq_crc8 (buf : List Byte) : crc8Table buf = crc8 buf := foldl_t8_eq_crc8From 0 buf

/-- Settles O15, the table by evaluation and the loops by their bodies. -/
theorem tableFormOfCrc8Agrees : Obligations.TableFormOfCrc8Agrees :=
  ⟨fun i => (t8_eq_iterate i).trans (natRepeat_eq_iterate _ 8 i).symm, crc8Table_eq_crc8⟩

/-- Settles O14, since the table form agrees with the bit-serial one. -/
theorem crc8AnswersTheTableCrc : Obligations.Crc8AnswersTheTableCrc := by
  intro buf s
  rw [crc8Table_eq_crc8]
  rfl

/-- Settles O16: (b) and (c) from the loop over the bytes, (d) to (f) from the register. -/
theorem propertiesOfCrc8 : Obligations.PropertiesOfCrc8 := by
  refine ⟨rfl, fun a b => ?_, fun a => (crc8_append_singleton_eq_zero_iff a _).2 rfl, fun a b hlen => ?_,
    fun a k j hk hj => ?_, fun n => ?_⟩
  · rw [foldl_t8_eq_crc8From, crc8_eq_from, crc8From_append, ← crc8_eq_from]
  · simp only [crc8_eq_absorb]
    exact absorb_xorBytes _ 0 0 hlen
  · simp only [crc8_eq_absorb]
    exact absorb_flipBit_ne (by decide) (by decide) 0 hk hj
  · rw [crc8_eq_absorb]
    exact absorb_replicate_zero _ n

end Sys2Proof.Machine

/-! ## CHECK_ADDR (R132) -/

namespace Sys2Proof.Machine

/-- An address is its first seven bytes and the eighth (R90). -/
theorem addr_eq_append (a : Addr) : a.toList = a.toList.take 7 ++ [a[7]] := by
  obtain ⟨⟨bytes⟩, hsize⟩ := a
  match bytes, hsize with
  | [_, _, _, _, _, _, _, _], _ => rfl

theorem crc8_addr_eq_zero_iff (a : Addr) : crc8 a.toList = 0 ↔ crc8 (a.toList.take 7) = a[7] := by
  rw [← crc8_append_singleton_eq_zero_iff (a.toList.take 7), ← addr_eq_append]

/-- Settles O24, from the residue of a CRC8 (R124 (c)) and its zeros (R124 (f)). -/
theorem checkAddrMatchesAZeroResidue : Obligations.CheckAddrMatchesAZeroResidue := by
  refine ⟨fun a s => ?_, crc8_addr_eq_zero_iff, ?_⟩
  · have hmatch : matchByte (addrIntegrity a) = if crc8 a.toList = 0x00 then 0x01 else 0x00 := by
      simp only [matchByte, addrIntegrity, crc8_addr_eq_zero_iff, decide_eq_true_eq]
    rw [← hmatch]
    rfl
  · obtain ⟨-, -, -, -, -, hzeros⟩ := propertiesOfCrc8
    exact hzeros 8

end Sys2Proof.Machine

/-! ## CRC16 is the register of width 16 with 0xA001 (R126 to R128) -/

namespace Sys2Proof.Machine

theorem crc16Shift_eq_shiftReg (crc : Word16) : crc16Shift crc = shiftReg 0xA001 crc :=
  (shiftReg_eq_ite _ crc).symm

theorem crc16Byte_eq_absorbByte (crc : Word16) (v : Byte) : crc16Byte crc v = absorbByte 0xA001 crc v := by
  rw [crc16Byte, funext crc16Shift_eq_shiftReg, natRepeat_eq_iterate, absorbByte]

theorem crc16_eq_absorb (buf : List Byte) (seed : Word16) : crc16 buf seed = absorb 0xA001 seed buf := by
  rw [crc16, funext₂ crc16Byte_eq_absorbByte, absorb]

/-! ### The two bytes of the register (R51) -/

theorem append_xor_setWidth (hi lo v : Byte) : (hi ++ lo : Word16) ^^^ v.setWidth 16 = hi ++ (lo ^^^ v) := by
  have hwide : v.setWidth 16 = (0#8 ++ v : Word16) := BitVec.setWidth_eq_append (by decide)
  rw [hwide, BitVec.xor_append, BitVec.xor_zero]

theorem append_zero_xor_setWidth (hi lo : Byte) : (hi ++ 0#8 : Word16) ^^^ lo.setWidth 16 = hi ++ lo := by
  rw [append_xor_setWidth, BitVec.zero_xor]

theorem append_ushiftRight (hi lo : Byte) : (hi ++ lo : Word16) >>> 8 = hi.setWidth 16 := by
  refine BitVec.eq_of_getLsbD_eq fun i hi' => ?_
  rw [BitVec.getLsbD_ushiftRight, BitVec.getLsbD_append, if_neg (by omega), BitVec.getLsbD_setWidth,
    Nat.add_sub_cancel_left, decide_eq_true hi', Bool.true_and]

section
variable (g : Word16)

/-- Eight shifts bring the high byte down as it is: no bit of it meets the feedback. -/
theorem iterate_shiftReg_high (hi : Byte) : (shiftReg g)^[8] (hi ++ 0#8) = hi.setWidth 16 := by
  have hlow : ∀ i < 8, (hi ++ 0#8 : Word16).getLsbD i = false := fun i hi' => by
    rw [BitVec.getLsbD_append, if_pos hi', BitVec.getLsbD_zero]
  rw [iterate_shiftReg_of_low_zero g hlow, append_ushiftRight]

theorem iterate_shiftReg_append (hi lo : Byte) :
    (shiftReg g)^[8] (hi ++ lo) = hi.setWidth 16 ^^^ (shiftReg g)^[8] (lo.setWidth 16) := by
  rw [← append_zero_xor_setWidth, iterate_shiftReg_xor, iterate_shiftReg_high]

/-- Two bytes are sixteen shifts of the register XOR the 16-bit value they are, low byte first. -/
theorem absorb_pair (crc : Word16) (lo hi : Byte) :
    absorb g crc [lo, hi] = (shiftReg g)^[16] (crc ^^^ (hi ++ lo)) := by
  have hvalue : crc ^^^ lo.setWidth 16 ^^^ (hi ++ 0#8) = crc ^^^ (hi ++ lo) := by
    rw [BitVec.xor_assoc, BitVec.xor_comm (lo.setWidth 16), append_zero_xor_setWidth]
  calc absorb g crc [lo, hi]
    _ = (shiftReg g)^[8] ((shiftReg g)^[8] (crc ^^^ lo.setWidth 16) ^^^ hi.setWidth 16) := rfl
    _ = (shiftReg g)^[8] ((shiftReg g)^[8] (crc ^^^ lo.setWidth 16 ^^^ (hi ++ 0#8))) := by
      rw [iterate_shiftReg_xor g 8 (crc ^^^ _), iterate_shiftReg_high]
    _ = (shiftReg g)^[16] (crc ^^^ (hi ++ lo)) := by rw [hvalue]; rfl

end

/-! ### The parity-table form (R127) -/

theorem par4_eq_parity (i : BitVec 4) :
    par4 i = (i.getLsbD 0 ^^ i.getLsbD 1 ^^ i.getLsbD 2 ^^ i.getLsbD 3) := by
  revert i
  decide

/-- What R127 puts in the register for the byte `c`. -/
def parityFeedback (c : Byte) : Word16 :=
  (if par4 (c.extractLsb' 0 4) ^^ par4 (c.extractLsb' 4 4) then 0xC001 else 0) ^^^
    (c.setWidth 16 <<< 6) ^^^ (c.setWidth 16 <<< 7)

/-- The parity step, for each of the 256 bytes against its eight shifts (R127). -/
theorem parityFeedback_eq_iterate (c : Byte) : parityFeedback c = (shiftReg 0xA001)^[8] (c.setWidth 16) := by
  revert c
  decide +kernel

theorem crc16ParityByte_append (hi lo v : Byte) :
    crc16ParityByte (hi ++ lo) v = hi.setWidth 16 ^^^ parityFeedback (lo ^^^ v) := by
  simp only [crc16ParityByte, lowByte_append, append_ushiftRight, parityFeedback, BitVec.xor_comm v lo]
  split <;> simp [BitVec.xor_assoc]

/-- The shifted register is the high byte, and the parity step is what the low byte feeds back. -/
theorem crc16ParityByte_eq_crc16Byte (crc : Word16) (v : Byte) : crc16ParityByte crc v = crc16Byte crc v := by
  obtain ⟨lo, hi, rfl⟩ := exists_bytes_of_word16 crc
  rw [crc16ParityByte_append, parityFeedback_eq_iterate, ← iterate_shiftReg_append, crc16Byte_eq_absorbByte,
    absorbByte, append_xor_setWidth]

theorem crc16Parity_eq_crc16 (buf : List Byte) (seed : Word16) : crc16Parity buf seed = crc16 buf seed := by
  rw [crc16Parity, funext₂ crc16ParityByte_eq_crc16Byte, crc16]

/-- Settles O19, the table by evaluation and the loops by their bodies. -/
theorem parityTableFormOfCrc16Agrees : Obligations.ParityTableFormOfCrc16Agrees :=
  ⟨par4_eq_parity, crc16Parity_eq_crc16⟩

/-- Settles O18, since the parity-table form agrees with the bit-serial one. -/
theorem crc16AnswersTheParityTableCrc : Obligations.Crc16AnswersTheParityTableCrc := by
  refine ⟨fun seed buf s => ⟨lowByte (crc16 buf seed), highByte (crc16 buf seed), ?_, rfl⟩, crc16_nil⟩
  rw [crc16Parity_eq_crc16, high_append_low]

/-! ### The properties (a) to (e) (R129) -/

theorem crc16_append (a b : List Byte) (s : Word16) : crc16 (a ++ b) s = crc16 b (crc16 a s) := List.foldl_append

/-- The register meets its own complement: sixteen shifts of 0xFFFF are left (R129 (c)). -/
theorem crc16_invertedPair (crc : Word16) : crc16 (invertedPair crc) crc = 0xB001 := by
  rw [crc16_eq_absorb, invertedPair, absorb_pair, high_append_low]
  have hones : crc ^^^ ~~~crc = 0xFFFF := by rw [← BitVec.not_xor_right, BitVec.xor_self]; rfl
  rw [hones]
  decide

theorem crc16_flipBit_ne {buf : List Byte} (seed : Word16) {k j : Nat} (hk : k < buf.length) (hj : j < 8) :
    crc16 (flipBit buf k j) seed ≠ crc16 buf seed := by
  simp only [crc16_eq_absorb]
  exact absorb_flipBit_ne (by decide) (by decide) seed hk hj

/-- Settles O20: (c) from the two bytes of the pair, (d) and (e) from the register. -/
theorem propertiesOfCrc16 : Obligations.PropertiesOfCrc16 := by
  refine ⟨crc16_nil, crc16_append, fun a s => ?_, fun a s k j => crc16_flipBit_ne s, fun a b s r hlen => ?_⟩
  · rw [crc16_append, crc16_invertedPair]
  · simp only [crc16_eq_absorb, absorb_xorBytes _ _ _ hlen]

end Sys2Proof.Machine

/-! ## CHECK_CRC16 (R130, R131) -/

namespace Sys2Proof.Machine

/-- The inverted pair is the 16-bit value, low byte first (R91). -/
theorem invertedPair_eq_iff {crc : Word16} {q0 q1 : Byte} : invertedPair crc = [q0, q1] ↔ q1 ++ q0 = ~~~crc := by
  constructor
  · intro h
    obtain ⟨rfl, rfl⟩ : lowByte (~~~crc) = q0 ∧ highByte (~~~crc) = q1 := by simpa [invertedPair] using h
    exact high_append_low _
  · intro h
    rw [invertedPair, ← h, lowByte_append, highByte_append]

theorem exec_checkCrc16 (seed : Word16) (buf : List Byte) (q0 q1 : Byte) (s : State) :
    exec (.checkCrc16 seed buf q0 q1) s = .next { s with
      response := some [0x00, if (q1 ++ q0 : BitVec 16) = ~~~(crc16 buf seed) then 0x01 else 0x00] } := by
  have hmatch : matchByte (checkCrc16 buf seed q0 q1) =
      if (q1 ++ q0 : BitVec 16) = ~~~(crc16 buf seed) then 0x01 else 0x00 := by
    simp only [matchByte, checkCrc16_iff, invertedPair_eq_iff]
  rw [← hmatch]
  rfl

/-- Settles O22, since the parity-table form agrees with the bit-serial one. -/
theorem checkCrc16ComparesTheInvertedPair : Obligations.CheckCrc16ComparesTheInvertedPair := by
  intro seed buf q0 q1 s
  rw [exec_checkCrc16, crc16Parity_eq_crc16]

section
variable {seed : Word16} {buf : List Byte} {q0 q1 : Byte} (s : State)

theorem exec_checkCrc16_of_eq (h : q1 ++ q0 = ~~~(crc16 buf seed)) :
    exec (.checkCrc16 seed buf q0 q1) s = .next { s with response := some [0x00, 0x01] } := by
  rw [exec_checkCrc16, if_pos h]

theorem exec_checkCrc16_of_ne (h : q1 ++ q0 ≠ ~~~(crc16 buf seed)) :
    exec (.checkCrc16 seed buf q0 q1) s = .next { s with response := some [0x00, 0x00] } := by
  rw [exec_checkCrc16, if_neg h]

end

/-- Settles O23: a flip in the buffer changes the CRC, a flip in the pair changes what it is compared with. -/
theorem checkCrc16AcceptsItsPairAndRejectsBitFlips : Obligations.CheckCrc16AcceptsItsPairAndRejectsBitFlips := by
  intro seed buf lo hi s hpair
  refine ⟨exec_checkCrc16_of_eq s hpair, fun k j hk hj => exec_checkCrc16_of_ne s ?_,
    fun j hj => ⟨exec_checkCrc16_of_ne s ?_, exec_checkCrc16_of_ne s ?_⟩⟩
  · rw [hpair]
    exact fun h => crc16_flipBit_ne seed hk hj (BitVec.not_inj.1 h).symm
  · rw [← hpair]
    exact fun h => xor_one_shiftLeft_ne lo hj ((BitVec.append_right_inj hi).1 h)
  · rw [← hpair]
    exact fun h => xor_one_shiftLeft_ne hi hj ((BitVec.append_left_inj lo).1 h)

end Sys2Proof.Machine

/-! ## The register as a remainder in GF(2)[X] (R121, R126, R8) -/

namespace Sys2Proof.Machine

open Polynomial

/-! ### `k` bits as a polynomial, the first bit the highest power -/

/-- The first `k` bits of a sequence as a polynomial. A reflected value and a message are both of this form. -/
noncomputable def bitsPoly (k : Nat) (b : Nat → Bool) : (ZMod 2)[X] :=
  ∑ i ∈ Finset.range k, if b i then X ^ (k - 1 - i) else 0

theorem reflectedPoly_eq_bitsPoly (w : Nat) (v : BitVec w) : reflectedPoly w v = bitsPoly w v.getLsbD := rfl

/-- One more bit at the end. -/
theorem bitsPoly_succ (k : Nat) (b : Nat → Bool) :
    bitsPoly (k + 1) b = bitsPoly k b * X + if b k then 1 else 0 := by
  have hshift : ∀ i ∈ Finset.range k,
      (if b i then X ^ (k + 1 - 1 - i) else 0 : (ZMod 2)[X]) = (if b i then X ^ (k - 1 - i) else 0) * X := by
    intro i hi
    rw [ite_mul, zero_mul, ← pow_succ, show k + 1 - 1 - i = k - 1 - i + 1 by have := Finset.mem_range.1 hi; omega]
  rw [bitsPoly, Finset.sum_range_succ, Finset.sum_congr rfl hshift, ← Finset.sum_mul, ← bitsPoly]
  simp

/-- One more bit in front. -/
theorem bitsPoly_succ' (k : Nat) (b : Nat → Bool) :
    bitsPoly (k + 1) b = bitsPoly k (fun i => b (i + 1)) + if b 0 then X ^ k else 0 := by
  rw [bitsPoly, Finset.sum_range_succ', bitsPoly, Nat.add_sub_cancel, Nat.sub_zero]
  simp only [Nat.sub_sub, Nat.add_comm 1]

theorem bitsPoly_xor (k : Nat) (a b : Nat → Bool) :
    bitsPoly k (fun i => a i ^^ b i) = bitsPoly k a + bitsPoly k b := by
  rw [bitsPoly, bitsPoly, bitsPoly, ← Finset.sum_add_distrib]
  refine Finset.sum_congr rfl fun i _ => ?_
  cases a i <;> cases b i <;> simp [CharTwo.add_self_eq_zero]

/-- Bits that are 0 at the end multiply by a power of `X`. -/
theorem bitsPoly_add_of_false (k n : Nat) {b : Nat → Bool} (h : ∀ i, k ≤ i → b i = false) :
    bitsPoly (k + n) b = bitsPoly k b * X ^ n := by
  induction n with
  | zero => simp
  | succ n ih => rw [← Nat.add_assoc, bitsPoly_succ, ih, h _ (Nat.le_add_right k n), pow_succ, mul_assoc]; simp

/-- `k` more bits of a message (R53). -/
theorem foldl_bits_eq (m : (ZMod 2)[X]) (k : Nat) (b : Nat → Bool) :
    ((List.range k).map b).foldl (fun m bit => m * X + if bit then 1 else 0) m = m * X ^ k + bitsPoly k b := by
  induction k with
  | zero => simp [bitsPoly]
  | succ k ih =>
    rw [List.range_succ, List.map_append, List.foldl_append, ih, bitsPoly_succ]
    simp only [List.map_cons, List.map_nil, List.foldl_cons, List.foldl_nil]
    ring

theorem messagePoly_append_singleton (buf : List Byte) (v : Byte) :
    messagePoly (buf ++ [v]) = messagePoly buf * X ^ 8 + reflectedPoly 8 v := by
  rw [messagePoly, List.flatMap_append, List.flatMap_singleton, List.foldl_append, ← messagePoly, byteBits,
    foldl_bits_eq, reflectedPoly_eq_bitsPoly]

theorem degree_bitsPoly_lt (k : Nat) (b : Nat → Bool) : (bitsPoly k b).degree < k := by
  refine mem_degreeLT.1 (Submodule.sum_mem _ fun i hi => ?_)
  split
  · rw [mem_degreeLT, degree_X_pow, Nat.cast_lt]
    have := Finset.mem_range.1 hi
    omega
  · exact Submodule.zero_mem _

/-! ### The shift is a multiplication by `X` modulo the generator -/

section
variable {w : Nat} (g : BitVec w)

/-- The generator of a register: its feedback bits, reflected, below `X ^ w`. -/
noncomputable def generatorPoly : (ZMod 2)[X] := X ^ w + reflectedPoly w g

theorem monic_generatorPoly : (generatorPoly g).Monic := monic_X_pow_add (degree_bitsPoly_lt w _)

/-- A register's value is a remainder already. -/
theorem reflectedPoly_modByMonic (v : BitVec w) : reflectedPoly w v %ₘ generatorPoly g = reflectedPoly w v := by
  refine (modByMonic_eq_self_iff (monic_generatorPoly g)).2 ?_
  rw [generatorPoly, degree_add_eq_left_of_degree_lt, degree_X_pow]
  · exact degree_bitsPoly_lt w _
  · rw [degree_X_pow]
    exact degree_bitsPoly_lt w _

theorem reflectedPoly_xor (u v : BitVec w) : reflectedPoly w (u ^^^ v) = reflectedPoly w u + reflectedPoly w v := by
  rw [reflectedPoly_eq_bitsPoly, funext fun i => BitVec.getLsbD_xor (i := i) (x := u) (y := v), bitsPoly_xor]
  rfl

theorem reflectedPoly_zero : reflectedPoly w 0 = 0 := by simp [reflectedPoly]

/-- Without feedback: the low bit, the highest power, leaves the register. -/
theorem reflectedPoly_mul_X (v : BitVec w) :
    reflectedPoly w v * X = reflectedPoly w (v >>> 1) + if v.getLsbD 0 then X ^ w else 0 := by
  have htop : v.getLsbD w = false := BitVec.getLsbD_of_ge v w le_rfl
  have hshift : (fun i => v.getLsbD (i + 1)) = (v >>> 1).getLsbD := by
    funext i
    rw [BitVec.getLsbD_ushiftRight, Nat.add_comm]
  have hlast := bitsPoly_succ w v.getLsbD
  rw [htop, if_neg Bool.false_ne_true, add_zero, bitsPoly_succ', hshift] at hlast
  exact hlast.symm

/-- With feedback: what left the register as `X ^ w` comes back as the rest of the generator. -/
theorem reflectedPoly_shiftReg (v : BitVec w) :
    reflectedPoly w (shiftReg g v) = reflectedPoly w v * X + if v.getLsbD 0 then generatorPoly g else 0 := by
  rw [reflectedPoly_mul_X, shiftReg, reflectedPoly_xor]
  split
  · rw [generatorPoly, add_assoc, ← add_assoc (X ^ w), CharTwo.add_self_eq_zero, zero_add]
  · rw [reflectedPoly_zero, add_zero, add_zero]

/-- `k` shifts multiply by `X ^ k` modulo the generator. -/
theorem mk_reflectedPoly_iterate_shiftReg (k : Nat) (v : BitVec w) :
    AdjoinRoot.mk (generatorPoly g) (reflectedPoly w ((shiftReg g)^[k] v)) =
      AdjoinRoot.mk (generatorPoly g) (reflectedPoly w v * X ^ k) := by
  induction k with
  | zero => simp
  | succ k ih =>
    have hfeedback (c : Bool) : AdjoinRoot.mk (generatorPoly g) (if c then generatorPoly g else 0) = 0 := by
      cases c <;> simp
    rw [Function.iterate_succ_apply', reflectedPoly_shiftReg, map_add, map_mul, ih, hfeedback, add_zero, ← map_mul,
      mul_assoc, pow_succ]

/-- A byte widened to the register stands at its highest powers. -/
theorem reflectedPoly_setWidth (hw : 8 ≤ w) (b : Byte) :
    reflectedPoly w (b.setWidth w) = reflectedPoly 8 b * X ^ (w - 8) := by
  have hbits : (b.setWidth w).getLsbD = b.getLsbD := by
    funext i
    rw [BitVec.getLsbD_setWidth]
    by_cases hi : i < w
    · rw [decide_eq_true hi, Bool.true_and]
    · rw [decide_eq_false hi, Bool.false_and, BitVec.getLsbD_of_ge b i (by omega)]
  obtain ⟨n, rfl⟩ := Nat.exists_eq_add_of_le hw
  rw [reflectedPoly_eq_bitsPoly, hbits, bitsPoly_add_of_false 8 n fun i => BitVec.getLsbD_of_ge b i,
    Nat.add_sub_cancel_left, ← reflectedPoly_eq_bitsPoly]

/-- The register takes a byte as the next eight bits of the message, `X ^ w` above. -/
theorem mk_reflectedPoly_absorbByte (hw : 8 ≤ w) (v : BitVec w) (b : Byte) :
    AdjoinRoot.mk (generatorPoly g) (reflectedPoly w (absorbByte g v b)) =
      AdjoinRoot.mk (generatorPoly g) (reflectedPoly w v * X ^ 8 + reflectedPoly 8 b * X ^ w) := by
  rw [absorbByte, mk_reflectedPoly_iterate_shiftReg, reflectedPoly_xor, reflectedPoly_setWidth hw, add_mul, mul_assoc,
    ← pow_add, Nat.sub_add_cancel hw]

theorem mk_reflectedPoly_absorb (hw : 8 ≤ w) (seed : BitVec w) (buf : List Byte) :
    AdjoinRoot.mk (generatorPoly g) (reflectedPoly w (absorb g seed buf)) =
      AdjoinRoot.mk (generatorPoly g) (messagePoly buf * X ^ w + reflectedPoly w seed * X ^ (8 * buf.length)) := by
  induction buf using List.reverseRecOn with
  | nil => simp [messagePoly]
  | append_singleton buf b ih =>
    have hlength : 8 * (buf ++ [b]).length = 8 * buf.length + 8 := by
      rw [List.length_append, List.length_singleton, mul_add]
    have hnext :
        (messagePoly buf * X ^ w + reflectedPoly w seed * X ^ (8 * buf.length)) * X ^ 8 + reflectedPoly 8 b * X ^ w =
          messagePoly (buf ++ [b]) * X ^ w + reflectedPoly w seed * X ^ (8 * (buf ++ [b]).length) := by
      rw [messagePoly_append_singleton, hlength]
      ring
    rw [absorb_append, absorb_cons, absorb_nil, mk_reflectedPoly_absorbByte g hw, map_add, map_mul, ih, ← map_mul,
      ← map_add, hnext]

/-- A CRC is a remainder: of the message times `X ^ w` plus the initial value shifted past the message. -/
theorem reflectedPoly_absorb (hw : 8 ≤ w) (seed : BitVec w) (buf : List Byte) :
    reflectedPoly w (absorb g seed buf) =
      (messagePoly buf * X ^ w + reflectedPoly w seed * X ^ (8 * buf.length)) %ₘ generatorPoly g := by
  rw [← reflectedPoly_modByMonic g (absorb g seed buf)]
  exact modByMonic_eq_of_dvd_sub (monic_generatorPoly g) (AdjoinRoot.mk_eq_mk.1 (mk_reflectedPoly_absorb g hw seed buf))

end

/-! ### The two generators -/

theorem generatorPoly_crc8 : generatorPoly (0x8C : Byte) = X ^ 8 + X ^ 5 + X ^ 4 + 1 := by
  have hlow : reflectedPoly 8 (0x8C : Byte) = X ^ 5 + X ^ 4 + 1 := by simp [reflectedPoly, Finset.sum_range_succ]
  rw [generatorPoly, hlow, ← add_assoc, ← add_assoc]

theorem generatorPoly_crc16 : generatorPoly (0xA001 : Word16) = X ^ 16 + X ^ 15 + X ^ 2 + 1 := by
  have hlow : reflectedPoly 16 (0xA001 : Word16) = X ^ 15 + X ^ 2 + 1 := by simp [reflectedPoly, Finset.sum_range_succ]
  rw [generatorPoly, hlow, ← add_assoc, ← add_assoc]

/-- Settles O17, from the register of width 8 with initial value 0. -/
theorem crc8IsARemainderOfItsGenerator : Obligations.Crc8IsARemainderOfItsGenerator := by
  intro buf
  rw [crc8_eq_absorb, reflectedPoly_absorb _ (Nat.le_refl 8), reflectedPoly_zero, zero_mul, add_zero,
    generatorPoly_crc8]

/-- Settles O21, from the register of width 16. -/
theorem crc16IsARemainderOfItsGenerator : Obligations.Crc16IsARemainderOfItsGenerator := by
  intro buf seed
  rw [crc16_eq_absorb, reflectedPoly_absorb _ (by decide), generatorPoly_crc16]

end Sys2Proof.Machine

/-! PROOFS. The statements of 41_enumerator.md: what one SEARCH does with the answers of the bus (R151 to R159), the
invariants of an idle block (R167), the register operations (R160, R162, R166), and enumerations on the ideal bus (R170
to R174). -/

/-! ## The bookkeeping of a pass (R156, R158) -/

namespace Sys2Proof.Machine

/-- `k` is the last position at which a pass took the 0-branch of a discrepancy, or 0 if there is none (R156). -/
def isLastZero (bits : List BitTriple) (k : Position) : Prop :=
  (k = 0 ∨ zeroTaken bits k) ∧ ∀ n : Position, k < n → ¬ zeroTaken bits n

/-- `lfd` is the last position within the family byte at which a pass took the 0-branch, or `old` if there is none
(R24, R156). -/
def isLastFamilyZero (bits : List BitTriple) (old lfd : FamilyPosition) : Prop :=
  (∀ n : Position, n ≤ 8 → zeroTaken bits n → (∀ m : Position, n < m → m ≤ 8 → ¬ zeroTaken bits m) →
    lfd.val = n.val) ∧
  ((∀ n : Position, n ≤ 8 → ¬ zeroTaken bits n) → lfd = old)

theorem zeroBranch_iff {b c d : Bool} : zeroBranch b c d = true ↔ ((b, c, d) : BitTriple) = (false, false, false) := by
  revert b c d
  decide

section
variable {bits : List BitTriple} {n k : Position}

theorem val_le_of_zeroTaken (h : zeroTaken bits n) : n.val ≤ bits.length := by
  obtain ⟨hlt, -⟩ := List.getElem?_eq_some_iff.1 h.2
  omega

variable {x : BitTriple} {old lfd : FamilyPosition} {zero : Bool}

theorem zeroTaken_concat_of_le (hn : n.val ≤ bits.length) : zeroTaken (bits ++ [x]) n ↔ zeroTaken bits n := by
  refine and_congr_right fun hpos => ?_
  rw [List.getElem?_append_left (by have : 0 < n.val := hpos; omega)]

theorem zeroTaken_concat_length (hn : n.val = bits.length + 1) :
    zeroTaken (bits ++ [x]) n ↔ x = (false, false, false) := by
  have hpos : 0 < n := Fin.lt_def.2 (hn ▸ Nat.succ_pos _)
  simp [zeroTaken, hn, hpos]

/-- A position at which the extended pass took the 0-branch is the new one or was taken before. -/
theorem zeroTaken_concat_cases (h : zeroTaken (bits ++ [x]) n) :
    n.val = bits.length + 1 ∨ zeroTaken bits n := by
  have hle := val_le_of_zeroTaken h
  rw [List.length_append, List.length_singleton] at hle
  exact (Nat.eq_or_lt_of_le hle).imp_right fun hlt => (zeroTaken_concat_of_le (Nat.le_of_lt_succ hlt)).1 h

/-- `last_zero` after one more position is the last 0-branch again (R156). -/
theorem isLastZero.concat (h : isLastZero bits k) (hn : n.val = bits.length + 1)
    (hzero : zero = true ↔ x = (false, false, false)) : isLastZero (bits ++ [x]) (lastZeroAfter zero n k) := by
  obtain ⟨hk, hlast⟩ := h
  cases zero with
  | true =>
    refine ⟨.inr ((zeroTaken_concat_length hn).2 (hzero.1 rfl)), fun m (hm : n < m) htaken => ?_⟩
    have hle := val_le_of_zeroTaken htaken
    rw [List.length_append, List.length_singleton] at hle
    exact absurd hm (Nat.not_lt.2 (hn ▸ hle))
  | false =>
    have hnew : x ≠ (false, false, false) := fun hx => Bool.false_ne_true (hzero.2 hx)
    refine ⟨hk.imp_right fun htaken => (zeroTaken_concat_of_le (val_le_of_zeroTaken htaken)).2 htaken,
      fun m hm htaken => ?_⟩
    obtain hval | htaken' := zeroTaken_concat_cases htaken
    · exact hnew ((zeroTaken_concat_length hval).1 htaken)
    · exact hlast m hm htaken'

/-- `LFD` is written where the 0-branch is taken within the family byte (R156). -/
theorem val_lfdAfter_of_taken (hzero : zero = true) (hn : n ≤ 8) : (lfdAfter zero n lfd).val = n.val := by
  rw [lfdAfter, dif_pos ⟨hzero, hn⟩]

/-- It is kept everywhere else (R24). -/
theorem lfdAfter_of_not_taken (h : n ≤ 8 → zero = false) : lfdAfter zero n lfd = lfd :=
  dif_neg fun ⟨hzero, hn⟩ => Bool.false_ne_true ((h hn).symm.trans hzero)

/-- `LFD` after one more position is the last 0-branch of the family byte again (R24, R156). -/
theorem isLastFamilyZero.concat (h : isLastFamilyZero bits old lfd) (hn : n.val = bits.length + 1)
    (hzero : zero = true ↔ x = (false, false, false)) :
    isLastFamilyZero (bits ++ [x]) old (lfdAfter zero n lfd) := by
  by_cases htake : n ≤ 8 ∧ zero = true
  · have htaken : zeroTaken (bits ++ [x]) n := (zeroTaken_concat_length hn).2 (hzero.1 htake.2)
    refine ⟨fun m _ hm hlast => ?_, fun hnone => absurd htaken (hnone n htake.1)⟩
    obtain hval | hm' := zeroTaken_concat_cases hm
    · rw [val_lfdAfter_of_taken htake.2 htake.1, hval, hn]
    · have hle := val_le_of_zeroTaken hm'
      exact absurd htaken (hlast n (Fin.lt_def.2 (by omega)) htake.1)
  · have hkept : lfdAfter zero n lfd = lfd :=
      lfdAfter_of_not_taken fun hle => Bool.eq_false_of_not_eq_true fun hz => htake ⟨hle, hz⟩
    have hsame (m : Position) (hm : m ≤ 8) : zeroTaken (bits ++ [x]) m ↔ zeroTaken bits m := by
      refine ⟨fun htaken => (zeroTaken_concat_cases htaken).resolve_left fun hval => htake ?_,
        fun htaken => (zeroTaken_concat_of_le (val_le_of_zeroTaken htaken)).2 htaken⟩
      obtain rfl : m = n := Fin.ext (hval.trans hn.symm)
      exact ⟨hm, hzero.2 ((zeroTaken_concat_length hn).1 htaken)⟩
    obtain ⟨hlast, hnone⟩ := h
    rw [hkept]
    refine ⟨fun m hm htaken hafter => hlast m hm ((hsame m hm).1 htaken) fun l hl hl8 => ?_,
      fun hnone' => hnone fun m hm => mt (hsame m hm).2 (hnone' m hm)⟩
    exact mt (hsame l hl8).2 (hafter l hl hl8)

end

end Sys2Proof.Machine

/-! ## A pass follows its answers (R151, R155 to R157) -/

namespace Sys2Proof.Machine

theorem passTxns_concat (bits : List BitTriple) (x : BitTriple) :
    passTxns (bits ++ [x]) = passTxns bits ++ positionTxns x := by
  simp [passTxns]

theorem length_passTxns (bits : List BitTriple) : (passTxns bits).length = 3 * bits.length + 2 := by
  induction bits using List.reverseRecOn with
  | nil => rfl
  | append_singleton bits x ih =>
    rw [passTxns_concat, List.length_append, ih, List.length_append]
    rfl

/-- `rom` is the `ROM` of `s` after a pass has resolved one position for each of `bits`: those positions hold what R155
and R156 say, the others what they held. -/
structure romFollows (s : State) (bits : List BitTriple) (rom : Addr) : Prop where
  resolved : ∀ m : Position, 0 < m → m.val ≤ bits.length → resolvedBy s.ld s.rom rom bits m
  unwritten : ∀ m : Position, bits.length < m.val → addrBit rom m = addrBit s.rom m

/-- The pass that started in `s` has resolved one position for each of `bits` and stands before the next one. -/
structure Pass.follows (s : State) (bits : List BitTriple) (p : Pass) : Prop where
  ok : p.ok = true
  trace : p.port.trace = s.port.trace ++ passTxns bits
  rom : romFollows s bits p.rom
  lastZero : isLastZero bits p.lastZero
  lfd : isLastFamilyZero bits s.lfd p.lfd

/-- The pass that started in `s` has resolved one position for each of `bits` and failed at the next one (R155). -/
structure Pass.failsAfter (s : State) (bits : List BitTriple) (p : Pass) : Prop where
  ok : p.ok = false
  trace : p.port.trace = s.port.trace ++ passTxns bits ++ [.readBit true, .readBit true]
  rom : romFollows s bits p.rom

section
variable {s : State} {bits : List BitTriple} {n : Position} {rom : Addr}

/-- A position stays resolved when a later one is. -/
theorem resolvedBy.concat {ld m : Position} {old new new' : Addr} (h : resolvedBy ld old new bits m) (x : BitTriple)
    (hbit : addrBit new' m = addrBit new m) : resolvedBy ld old new' (bits ++ [x]) m := by
  obtain ⟨b, c, hbits, hsamples, hd⟩ := h
  obtain ⟨hlt, -⟩ := List.getElem?_eq_some_iff.1 hbits
  exact ⟨b, c, by rw [List.getElem?_append_left hlt, hbits, hbit], hsamples, hbit.trans hd⟩

/-- A discrepancy is two equal samples, once both being 1 is excluded (R155). -/
theorem discrepancy_iff {b c : Bool} (h : (b && c) = false) : discrepancy b c = true ↔ b = c := by
  revert b c
  decide

/-- Writing the direction at the next position resolves it (R155 to R157). -/
theorem romFollows.concat (h : romFollows s bits rom) (hn : n.val = bits.length + 1) {b c : Bool}
    (hsamples : (b && c) = false) :
    romFollows s (bits ++ [(b, c, direction s.ld n rom b c)]) (setAddrBit rom n (direction s.ld n rom b c)) := by
  have hpos : 0 < n := Fin.lt_def.2 (hn ▸ Nat.succ_pos _)
  have hlength : (bits ++ [(b, c, direction s.ld n rom b c)]).length = n.val := by simp [hn]
  constructor
  case resolved =>
    intro m hm hle
    rw [hlength] at hle
    obtain hlt | heq := Nat.lt_or_eq_of_le hle
    · exact (h.resolved m hm (by omega)).concat _ (addrBit_setAddrBit_of_ne _ _ hpos hm hlt.ne)
    · obtain rfl := Fin.ext heq
      refine ⟨b, c, ?_, hsamples, ?_⟩
      · rw [addrBit_setAddrBit_self _ _ hpos, hn, Nat.add_sub_cancel, List.getElem?_concat_length]
      · rw [addrBit_setAddrBit_self _ _ hpos, direction_eq, chosenBit, h.unwritten m (by omega)]
        exact if_congr (discrepancy_iff hsamples) rfl rfl
  case unwritten =>
    intro m hm
    rw [hlength] at hm
    rw [addrBit_setAddrBit_of_ne _ _ hpos (hpos.trans hm) hm.ne']
    exact h.unwritten m (by omega)

variable {p : Pass}

/-- Resolving the next position from samples that are not both 1 goes one position on (R155 to R157). -/
theorem Pass.follows.resolve (h : p.follows s bits) (hn : n.val = bits.length + 1) {b c : Bool} {port : Port}
    (hsamples : (b && c) = false) (htrace : port.trace = p.port.trace ++ [.readBit b] ++ [.readBit c]) :
    (resolvePosition n b c (direction s.ld n p.rom b c) p port).follows s
      (bits ++ [(b, c, direction s.ld n p.rom b c)]) := by
  refine ⟨h.ok, ?_, h.rom.concat hn hsamples, h.lastZero.concat hn zeroBranch_iff, h.lfd.concat hn zeroBranch_iff⟩
  simp [htrace, h.trace, passTxns_concat, positionTxns]

/-- The next position is resolved, or the pass fails there (R155). -/
theorem Pass.follows.scanPosition (h : p.follows s bits) (hn : n.val = bits.length + 1) :
    (∃ x, (scanPosition s.ld n p).follows s (bits ++ [x])) ∨ (scanPosition s.ld n p).failsAfter s bits := by
  obtain ⟨hb, hc, hscan⟩ | ⟨hsamples, hscan⟩ := scanPosition_cases s.ld n p
  · refine .inr (hscan ▸ ⟨rfl, ?_, h.rom⟩)
    simp [hb, hc, h.trace]
  · exact .inl ⟨_, hscan ▸ h.resolve hn hsamples (by simp)⟩

end

/-- What each position either leads to the next position or ends the pass in, a pass over consecutive positions leads
past the last or ends in. -/
theorem scan_cases {ld : Position} {M : Nat → Pass → Prop} {F : Pass → Prop}
    (hstep : ∀ {n : Position} {p}, 0 < n → M n p →
      ((scanPosition ld n p).ok = true ∧ M (n + 1) (scanPosition ld n p)) ∨
      ((scanPosition ld n p).ok = false ∧ F (scanPosition ld n p)))
    {ns : List Position} {k : Nat} (hk : 0 < k) (hns : ∀ i (h : i < ns.length), (ns[i]).val = k + i) {p : Pass}
    (h : M k p) : M (k + ns.length) (scan ld ns p) ∨ F (scan ld ns p) := by
  induction ns generalizing k p with
  | nil => exact .inl h
  | cons n ns ih =>
    obtain rfl : n.val = k := hns 0 (Nat.succ_pos _)
    obtain ⟨hok, hnext⟩ | ⟨hok, hfail⟩ := hstep hk h
    · have hrest (i : Nat) (hi : i < ns.length) : (ns[i]).val = n.val + 1 + i := by
        have hval := hns (i + 1) (Nat.succ_lt_succ hi)
        rw [List.getElem_cons_succ] at hval
        omega
      rw [scan_cons_ok hok, List.length_cons, Nat.add_comm ns.length 1, ← Nat.add_assoc]
      exact ih (Nat.succ_pos _) hrest hnext
    · rw [scan_cons_fail hok]
      exact .inr hfail

/-- The pass of a SEARCH that got a presence pulse begins with the reset and the search command (R151, R152). -/
theorem startPass_follows {s : State} (hpresence : s.port.busReset.1 = true) :
    (startPass s (s.port.busReset.2.busWriteByte Config.searchRom)).follows s [] := by
  have htaken (n : Position) : ¬ zeroTaken [] n := fun h => absurd (val_le_of_zeroTaken h) (Nat.not_le.2 h.1)
  refine ⟨rfl, ?_, ⟨fun m hm hle => absurd hle (Nat.not_le.2 hm), fun _ _ => rfl⟩, ⟨.inl rfl, fun n _ => htaken n⟩,
    fun n _ hn => absurd hn (htaken n), fun _ => rfl⟩
  simp [hpresence, passTxns, Config.searchRom]

/-- That pass resolves all 64 positions or fails at one of them (R152, R155). -/
theorem searchPass_follows {s : State} (hpresence : s.port.busReset.1 = true) :
    (∃ bits, bits.length = 64 ∧ (searchPass s).follows s bits) ∨
    ∃ bits, bits.length < 64 ∧ (searchPass s).failsAfter s bits := by
  have hend := scan_cases (ld := s.ld) (k := 1) (ns := positions)
    (M := fun n p => ∃ bits, bits.length + 1 = n ∧ p.follows s bits)
    (F := fun p => ∃ bits, bits.length < 64 ∧ p.failsAfter s bits)
    (fun {n p} _ ⟨bits, hn, h⟩ => ?_) Nat.one_pos (fun i hi => (val_getElem_positions hi).trans (Nat.add_comm _ _))
    ⟨[], rfl, startPass_follows hpresence⟩
  · refine hend.imp_left fun ⟨bits, hlength, h⟩ => ⟨bits, ?_, h⟩
    rw [positions_length] at hlength
    omega
  · obtain ⟨x, hnext⟩ | hfail := h.scanPosition hn.symm
    · exact .inl ⟨hnext.ok, _, by rw [List.length_append, List.length_singleton, hn], hnext⟩
    · exact .inr ⟨hfail.ok, bits, by omega, hfail⟩

/-- The five exits of a SEARCH from `s`: the status, and the state it ends in (R152). The pass of the last three follows
its answers (R155 to R159). -/
inductive SearchOutcome (s : State) : Status → State → Prop
  | noMoreDevices (hldf : s.ldf = true) : SearchOutcome s .noMoreDevices (s.respond .noMoreDevices s.rom.toList)
  | noPresence (hldf : s.ldf = false) (hpresence : s.port.busReset.1 = false) :
      SearchOutcome s .noPresence (searchFailure .noPresence (s.setPort s.port.busReset.2))
  | noResponse {p : Pass} {bits : List BitTriple} (hldf : s.ldf = false) (hlength : bits.length < 64)
      (hpass : p.failsAfter s bits) :
      SearchOutcome s .noResponse (searchFailure .noResponse ((s.setRom p.rom).setPort p.port))
  | zeroAddress {p : Pass} {bits : List BitTriple} (hldf : s.ldf = false) (hlength : bits.length = 64)
      (hpass : p.follows s bits) (hrom : p.rom = zeroAddr) :
      SearchOutcome s .zeroAddress (searchFailure .zeroAddress ((s.setRom p.rom).setPort p.port))
  | ok {p : Pass} {bits : List BitTriple} (hldf : s.ldf = false) (hlength : bits.length = 64)
      (hpass : p.follows s bits) (hrom : p.rom ≠ zeroAddr) :
      SearchOutcome s .ok ((((s.setRom p.rom).setPort p.port).setSearch p.lastZero p.lfd
        (decide (p.lastZero = 0))).respond .ok p.rom.toList)

theorem search_outcome (s : State) : ∃ status, SearchOutcome s status (search s) := by
  have hcomplete (hpresence : s.port.busReset.1 = true) (hok : (searchPass s).ok = true) :
      ∃ bits, bits.length = 64 ∧ (searchPass s).follows s bits :=
    (searchPass_follows hpresence).resolve_right fun ⟨_, _, hfail⟩ => Bool.false_ne_true (hfail.ok.symm.trans hok)
  obtain ⟨hldf, h⟩ | ⟨hldf, hpresence, h⟩ | ⟨hldf, hpresence, hok, h⟩ | ⟨hldf, hpresence, hok, hrom, h⟩ |
    ⟨hldf, hpresence, hok, hrom, h⟩ := search_cases s
  · exact ⟨.noMoreDevices, h ▸ .noMoreDevices hldf⟩
  · exact ⟨.noPresence, h ▸ .noPresence hldf hpresence⟩
  · obtain ⟨bits, hlength, hpass⟩ := (searchPass_follows hpresence).resolve_left fun ⟨_, _, hend⟩ =>
      Bool.false_ne_true (hok.symm.trans hend.ok)
    exact ⟨.noResponse, h ▸ .noResponse hldf hlength hpass⟩
  · obtain ⟨bits, hlength, hpass⟩ := hcomplete hpresence hok
    exact ⟨.zeroAddress, h ▸ .zeroAddress hldf hlength hpass hrom⟩
  · obtain ⟨bits, hlength, hpass⟩ := hcomplete hpresence hok
    rw [ldfAfter_false] at h
    exact ⟨.ok, h ▸ .ok hldf hlength hpass hrom⟩

section
variable {s t : State} {status : Status}

theorem SearchOutcome.statusByte (h : SearchOutcome s status t) : t.statusByte = some status.code := by
  cases h <;> rfl

theorem outcome_of_exec_search (ht : exec .search s = .next t) : ∃ status, SearchOutcome s status t := by
  obtain rfl := Host.Outcome.next.inj ((exec_search s).symm.trans ht)
  exact search_outcome s

/-- The status byte of a SEARCH tells which exit it took (R97). -/
theorem outcome_of_statusByte (ht : exec .search s = .next t) (hstatus : t.statusByte = some status.code) :
    SearchOutcome s status t := by
  obtain ⟨status', h⟩ := outcome_of_exec_search ht
  exact Status.code_injective (Option.some.inj (h.statusByte.symm.trans hstatus)) ▸ h

end

end Sys2Proof.Machine

/-! ## The invariants of an idle block (R167) -/

namespace Sys2Proof.Machine

/-- Where the 0-branch was taken `ROM` holds a 0 (R156, R157). -/
theorem romFollows.addrBit_of_zeroTaken {s : State} {bits : List BitTriple} {rom : Addr} {n : Position}
    (h : romFollows s bits rom) (hn : zeroTaken bits n) : addrBit rom n = false := by
  obtain ⟨b, c, hbits, -⟩ := h.resolved n hn.1 (val_le_of_zeroTaken hn)
  have htriple : (b, c, addrBit rom n) = (false, false, false) := Option.some.inj (hbits.symm.trans hn.2)
  exact congrArg (fun x => x.2.2) htriple

section
variable {s t : State}

/-- With `LD` 0 nothing is left to show. -/
theorem idleInv_of_ld_eq_zero (h : s.ld = 0) : s.idleInv :=
  ⟨fun _ => h, fun hpos => absurd h hpos.ne'⟩

/-- No exit of SEARCH breaks the invariants: a failing one clears `LD`, a complete pass leaves it at a 0 of `ROM`. -/
theorem SearchOutcome.idleInv {status : Status} (h : SearchOutcome s status t) (hs : s.idleInv) : t.idleInv := by
  cases h with
  | noMoreDevices => exact hs
  | noPresence | noResponse | zeroAddress => exact idleInv_of_ld_eq_zero rfl
  | ok _ _ hpass _ =>
    obtain ⟨hlast, -⟩ := hpass.lastZero
    exact ⟨of_decide_eq_true, fun hpos => hpass.rom.addrBit_of_zeroTaken (hlast.resolve_left hpos.ne')⟩

/-- The seed of a family search has a 0 outside the family byte (R162). -/
theorem addrBit_familySeed (family : Byte) {n : Position} (hn : 8 < n) : addrBit (familySeed family) n = false := by
  have hbyte : 0 < (n.val - 1) / 8 ∧ (n.val - 1) / 8 < 8 := by have : 8 < n.val := hn; omega
  have hzero : (familySeed family)[(n.val - 1) / 8]?.getD 0 = 0 := by
    generalize (n.val - 1) / 8 = k at hbyte
    obtain ⟨hlow, hhigh⟩ := hbyte
    interval_cases k <;> rfl
  rw [addrBit, hzero]
  exact BitVec.getLsbD_zero

/-- Every command keeps the invariants (R167). -/
theorem exec_idleInv {i : Instr} (ht : exec i s = .next t) (hs : s.idleInv) : t.idleInv := by
  cases i with
  | search =>
    obtain ⟨_, h⟩ := outcome_of_exec_search ht
    exact h.idleInv hs
  | crc8 | crc16 | checkCrc16 | checkAddr | getState =>
    obtain rfl := Host.Outcome.next.inj ht
    exact hs
  | resetSearch =>
    obtain rfl := Host.Outcome.next.inj ht
    exact idleInv_of_ld_eq_zero rfl
  | targetFamily family =>
    obtain rfl := Host.Outcome.next.inj ht
    exact ⟨fun hldf => absurd hldf Bool.false_ne_true, fun _ => addrBit_familySeed family (n := 64) (by decide)⟩

theorem runPacket_idleInv {p : Packet} (ht : runPacket p s = .next t) (hs : s.idleInv) : t.idleInv := by
  cases hp : decode p with
  | ok i => exact exec_idleInv ((runPacket_ok s hp).symm.trans ht) hs
  | error r =>
    obtain rfl := Host.Outcome.next.inj ((runPacket_reject s hp).symm.trans ht)
    exact hs

/-- Every input of the outside world keeps the invariants (R167). -/
theorem step_idleInv (ht : step s = .next t) (hs : s.idleInv) : t.idleInv := by
  obtain ⟨-, rfl⟩ | ⟨p, rest, -, ht⟩ | ⟨rest, -, rfl⟩ | ⟨p, k, rest, -, ht⟩ | ⟨mode, line, rest, -, rfl⟩ :=
    step_cases ht
  · exact hs
  · exact runPacket_idleInv ht hs
  · exact idleInv_of_ld_eq_zero rfl
  · obtain ⟨port, hport⟩ := abandonPacket_next p k (s.setInputs rest)
    obtain rfl := Host.Outcome.next.inj (hport.symm.trans ht)
    exact idleInv_of_ld_eq_zero rfl
  · exact hs

end

/-- Settles O43: `LD` is 0 at reset. -/
theorem resetStateMeetsTheInvariants : Obligations.ResetStateMeetsTheInvariants := idleInv_of_ld_eq_zero rfl

/-- Settles O42: every step keeps the invariants, and each exit of SEARCH says what it leaves in the three fields. -/
theorem invariantsOfTheIdleBlock : Obligations.InvariantsOfTheIdleBlock := by
  refine ⟨resetStateMeetsTheInvariants,
    fun s t hs ht => ⟨step_idleInv ht hs, Nat.le_of_lt_succ t.ld.isLt, Nat.le_of_lt_succ t.lfd.isLt⟩,
    fun s t ht hstatus => ?_, fun s t ht hnotOk hnotDone => ?_⟩
  · cases outcome_of_statusByte (status := .ok) ht hstatus
    exact decide_eq_true_iff
  · obtain ⟨_, h⟩ := outcome_of_exec_search ht
    cases h with
    | noMoreDevices => exact absurd rfl hnotDone
    | noPresence | noResponse | zeroAddress => exact ⟨rfl, rfl, rfl⟩
    | ok => exact absurd rfl hnotOk

end Sys2Proof.Machine

/-! ## The statements about one SEARCH (R151 to R159) -/

namespace Sys2Proof.Machine

/-- Settles O34: the reset is the one transaction, and a time-out answers it with no presence (R66). -/
theorem noPresenceAbandonsTheEnumeration : Obligations.NoPresenceAbandonsTheEnumeration := by
  refine fun s hldf => ⟨fun hpresence => ⟨search s, exec_search s, ?_⟩, fun rs hline => ?_⟩
  · rw [search_of_no_presence hldf hpresence]
    refine ⟨rfl, ?_⟩
    rw [searchFailure_port, State.setPort_port, Port.busReset_trace, hpresence]
  · rw [Port.busReset_scripted s.port hline]
    rfl

/-- Settles O35: the transactions of each exit are those of the positions its pass resolved. -/
theorem searchIssuesTheTransactionsOfItsOutcome : Obligations.SearchIssuesTheTransactionsOfItsOutcome := by
  intro s
  obtain ⟨t, ht⟩ := exec_next .search s
  obtain ⟨status, h⟩ := outcome_of_exec_search ht
  cases h with
  | noMoreDevices => exact ⟨_, [], ht, (List.append_nil _).symm, .inl ⟨rfl, rfl⟩⟩
  | noPresence _ hpresence =>
    refine ⟨_, _, ht, ?_, .inr (.inl ⟨rfl, rfl⟩)⟩
    rw [searchFailure_port, State.setPort_port, Port.busReset_trace, hpresence]
  | @noResponse p bits _ hlength hpass =>
    refine ⟨_, _, ht, hpass.trace.trans (List.append_assoc _ _ _), .inr (.inr (.inl ⟨rfl, ?_⟩))⟩
    refine ⟨⟨bits.length + 1, Nat.succ_lt_succ hlength⟩, bits, Nat.succ_pos _, rfl, rfl, ?_⟩
    rw [List.length_append, length_passTxns]
    rfl
  | zeroAddress _ hlength hpass _ =>
    exact ⟨_, _, ht, hpass.trace, .inr (.inr (.inr ⟨.inr rfl, _, hlength, rfl, by rw [length_passTxns, hlength]⟩))⟩
  | ok _ hlength hpass _ =>
    exact ⟨_, _, ht, hpass.trace, .inr (.inr (.inr ⟨.inl rfl, _, hlength, rfl, by rw [length_passTxns, hlength]⟩))⟩

/-- After a complete pass every position is resolved. -/
theorem Pass.follows.resolvedBy {s : State} {p : Pass} {bits : List BitTriple} (h : p.follows s bits)
    (hlength : bits.length = 64) {n : Position} (hn : 0 < n) : resolvedBy s.ld s.rom p.rom bits n :=
  h.rom.resolved n hn (hlength ▸ Nat.le_of_lt_succ n.isLt)

/-- Settles O36: a complete pass over a non-zero address leaves the bookkeeping of its answers behind. -/
theorem searchOkFollowsTheAnswers : Obligations.SearchOkFollowsTheAnswers := by
  intro s t ht hstatus
  cases outcome_of_statusByte (status := .ok) ht hstatus with
  | @ok p bits hldf hlength hpass hrom =>
    obtain ⟨hlast, hdeepest⟩ := hpass.lastZero
    obtain ⟨hfamily, hkept⟩ := hpass.lfd
    exact ⟨hldf, rfl, hrom, rfl, bits, hlength, hpass.trace, fun _ => hpass.resolvedBy hlength, hlast, hdeepest, rfl,
      hfamily, hkept⟩

/-- Settles O37: the pass fails at the position after those it resolved. -/
theorem searchNoResponseKeepsTheRest : Obligations.SearchNoResponseKeepsTheRest := by
  intro s t ht hstatus
  cases outcome_of_statusByte (status := .noResponse) ht hstatus with
  | @noResponse p bits hldf hlength hpass =>
    refine ⟨hldf, rfl, rfl, rfl, rfl, rfl, ⟨bits.length + 1, Nat.succ_lt_succ hlength⟩, bits, Nat.succ_pos _, rfl,
      hpass.trace, fun m hm hmn => ?_, fun m hm => hpass.rom.unwritten m hm⟩
    exact hpass.rom.resolved m hm (Nat.le_of_lt_succ hmn)

/-- Settles O38: a complete pass over the zero address. -/
theorem searchZeroAddressIsAFailure : Obligations.SearchZeroAddressIsAFailure := by
  intro s t ht hstatus
  cases outcome_of_statusByte (status := .zeroAddress) ht hstatus with
  | @zeroAddress p bits hldf hlength hpass hrom =>
    refine ⟨hldf, rfl, rfl, rfl, hrom, ?_, rfl, bits, hlength, hpass.trace, fun _ => hpass.resolvedBy hlength⟩
    rw [searchFailure, State.respond_response, State.setPort_rom, State.setRom_rom, hrom]
    rfl

end Sys2Proof.Machine

/-! ## The register operations (R150, R160, R162, R166) -/

namespace Sys2Proof.Machine

theorem exec_targetFamily (family : Byte) (s : State) :
    exec (.targetFamily family) s =
      .next (((s.setSearch Config.targetLd 0 false).setRom (familySeed family)).respond .ok []) := rfl

/-- A command other than SEARCH answers `OK` from a state with the port and the inputs it found (R120, R150). -/
theorem exec_of_ne_search {i : Instr} (hi : i ≠ .search) (s : State) :
    ∃ (u : State) (payload : List Byte), exec i s = .next (u.respond .ok payload) ∧
      u.port = s.port ∧ u.inputs = s.inputs := by
  cases i with
  | search => exact absurd rfl hi
  | crc8 | crc16 | checkCrc16 | checkAddr | resetSearch | targetFamily | getState => exact ⟨_, _, rfl, rfl, rfl⟩

/-- Settles O30, since every command but SEARCH ends in `respond` from the port and inputs it found. -/
theorem onlySearchUsesTheBus : Obligations.OnlySearchUsesTheBus := by
  intro i s t hi ht
  obtain ⟨u, payload, hexec, hport, hinputs⟩ := exec_of_ne_search hi s
  obtain rfl := Host.Outcome.next.inj (hexec.symm.trans ht)
  exact ⟨hport, hinputs, rfl⟩

/-- Settles O26: the four items are written with literals, so a second RESET_SEARCH changes nothing. -/
theorem resetSearchClearsTheFourItems : Obligations.ResetSearchClearsTheFourItems := fun s =>
  ⟨_, exec_resetSearch s, rfl, exec_resetSearch _, exec_getState _⟩

/-- Settles O27: the seed is written with literals and the family byte. -/
theorem targetFamilySeedsTheSearch : Obligations.TargetFamilySeedsTheSearch := fun f s =>
  ⟨_, exec_targetFamily f s, rfl, exec_getState _⟩

/-- A number below `2 ^ k`, held in a byte, leaves the bits from `k` on 0. -/
theorem getLsbD_ofNat_of_lt {n k i : Nat} (hn : n < 2 ^ k) (hi : k ≤ i) : (BitVec.ofNat 8 n).getLsbD i = false := by
  rw [BitVec.getLsbD_ofNat, Nat.testBit_lt_two_pow (hn.trans_le (Nat.pow_le_pow_right Nat.two_pos hi)), Bool.and_false]

/-- Settles O28: each field is below the power of two that its reserved bits begin at (R28). -/
theorem getStateAnswersTheImage : Obligations.GetStateAnswersTheImage := by
  intro s
  have hld := s.ld.isLt
  have hlfd := s.lfd.isLt
  refine ⟨BitVec.ofNat 8 s.ld.val, BitVec.ofNat 8 s.lfd.val, BitVec.ofNat 8 s.ldf.toNat,
    Nat.mod_eq_of_lt (by omega), Nat.mod_eq_of_lt (by omega), ?_,
    getLsbD_ofNat_of_lt (k := 7) (by omega) (Nat.le_refl 7), fun i => getLsbD_ofNat_of_lt (k := 4) (by omega),
    fun i => getLsbD_ofNat_of_lt (k := 1) s.ldf.toNat_lt, ?_⟩
  · exact Nat.mod_eq_of_lt (s.ldf.toNat_lt.trans (by decide))
  · have hflag : (if s.ldf then 0x01 else 0x00 : Byte) = BitVec.ofNat 8 s.ldf.toNat := by cases s.ldf <;> rfl
    rw [exec_getState, stateImage, hflag]
    rfl

end Sys2Proof.Machine

/-! ## The terminal flag (R153) -/

namespace Sys2Proof.Machine

theorem runSearches_succ (k : Nat) (s : State) :
    runSearches (k + 1) s =
      ((search s).response.getD [] :: (runSearches k (search s)).1, (runSearches k (search s)).2) := rfl

/-- With `LDF` set every SEARCH answers NO_MORE_DEVICES with `ROM` (R153). -/
theorem runSearches_of_ldf {s : State} (hldf : s.ldf = true) (k : Nat) :
    (runSearches k s).1 = List.replicate k (0x01 :: s.rom.toList) ∧ (runSearches k s).2.ldf = true ∧
      (runSearches k s).2.port = s.port := by
  induction k generalizing s with
  | zero => exact ⟨rfl, hldf, rfl⟩
  | succ k ih =>
    obtain ⟨hanswers, hldf', hport⟩ := ih (s := s.respond .noMoreDevices s.rom.toList) hldf
    rw [runSearches_succ, search_of_ldf hldf, hanswers]
    exact ⟨rfl, hldf', hport⟩

/-- Settles O33, by induction on the number of SEARCHes. -/
theorem terminalFlagIsSticky : Obligations.TerminalFlagIsSticky := fun _ hldf =>
  ⟨congrArg _ (search_of_ldf hldf), runSearches_of_ldf hldf⟩

end Sys2Proof.Machine

/-! ## A line stuck at 0 (R159, R162, R175) -/

namespace Sys2Proof.Machine

/-- Every sample of the pass was 0. -/
def samplesZero (bits : List BitTriple) : Prop := ∀ x ∈ bits, x.1 = false ∧ x.2.1 = false

/-- The pass that started in `s` stands before position `n`, on a line that has answered 0 all along and will do so to
the end of the pass. -/
structure Pass.stuck (s : State) (rest : List Reply) (n : Nat) (p : Pass) : Prop where
  awaits : p.awaits (List.replicate (65 - n) (false, false)) rest
  follows : ∃ bits, bits.length + 1 = n ∧ p.follows s bits ∧ samplesZero bits

theorem Pass.stuck.scanPosition {s : State} {rest : List Reply} {n : Position} {p : Pass} (h : p.stuck s rest n) :
    (scanPosition s.ld n p).stuck s rest (n + 1) := by
  obtain ⟨hawaits, bits, hn, hfollows, hzero⟩ := h
  have hleft : 65 - n.val = 65 - (n.val + 1) + 1 := by omega
  rw [hleft, List.replicate_succ] at hawaits
  refine ⟨scanPosition_awaits hawaits, bits ++ [(false, false, direction s.ld n p.rom false false)], ?_, ?_, ?_⟩
  · rw [List.length_append, List.length_singleton, hn]
  · rw [scanPosition_of_awaits hawaits]
    exact hfollows.resolve hn.symm rfl rfl
  · exact List.forall_mem_append.2 ⟨hzero, List.forall_mem_singleton.2 ⟨rfl, rfl⟩⟩

section
variable {s : State} {rest : List Reply}

/-- The answers of a line stuck at 0 to the reads of `n` positions. -/
theorem pairReplies_replicate_zero (n : Nat) :
    pairReplies (List.replicate n (false, false)) = List.replicate (2 * n) (.answer false) := by
  induction n with
  | zero => rfl
  | succ n ih => rw [List.replicate_succ, pairReplies_cons, ih, Nat.mul_succ, List.replicate_succ, List.replicate_succ]

/-- On such a line a pass completes, every sample being 0. -/
theorem searchPass_of_stuck
    (hline : s.port.line = .scripted (.answer true :: List.replicate 128 (.answer false) ++ rest)) :
    s.port.busReset.1 = true ∧ ∃ bits, bits.length = 64 ∧ (searchPass s).follows s bits ∧ samplesZero bits := by
  obtain ⟨hpresence, hstart, -⟩ := startPass_of_presence hline
  have hend : (searchPass s).stuck s rest 65 :=
    scan_positions_induction (fun h => h.awaits.ok) (fun _ h => h.scanPosition)
      ⟨⟨rfl, (pairReplies_replicate_zero 64).symm ▸ hstart, fun x hx => List.eq_of_mem_replicate hx ▸ by decide⟩,
        [], rfl, startPass_follows hpresence, List.forall_mem_nil _⟩
  obtain ⟨-, bits, hlength, h⟩ := hend
  exact ⟨hpresence, bits, Nat.succ.inj hlength, h⟩

variable {bits : List BitTriple} {p : Pass} {n : Position}

/-- It resolves every position as a discrepancy (R156). -/
theorem Pass.follows.addrBit_of_samplesZero (h : p.follows s bits) (hlength : bits.length = 64)
    (hzero : samplesZero bits) (hn : 0 < n) : addrBit p.rom n = chosenBit s.ld s.rom n := by
  obtain ⟨b, c, hbits, -, hd⟩ := h.resolvedBy hlength hn
  obtain ⟨rfl, rfl⟩ := hzero _ (List.mem_of_getElem? hbits)
  exact hd

/-- The 0-branch was taken wherever the address it made up has a 0. -/
theorem Pass.follows.zeroTaken_of_samplesZero (h : p.follows s bits) (hlength : bits.length = 64)
    (hzero : samplesZero bits) (hn : 0 < n) (hbit : addrBit p.rom n = false) : zeroTaken bits n := by
  obtain ⟨b, c, hbits, -, -⟩ := h.resolvedBy hlength hn
  obtain ⟨rfl, rfl⟩ := hzero _ (List.mem_of_getElem? hbits)
  exact ⟨hn, hbit ▸ hbits⟩

end

/-- The address a pass steers to after TARGET_FAMILY: the seed, with the 1-branch taken at position 64 (R156, R162). -/
def familyTarget (family : Byte) : Addr := setAddrBit (familySeed family) 64 true

theorem toList_familyTarget (family : Byte) : (familyTarget family).toList = [family, 0, 0, 0, 0, 0, 0, 0x80] := by
  simp [familyTarget, setAddrBit, familySeed, setByteBit]

theorem addrBit_familyTarget_of_lt (family : Byte) {n : Position} (hn : 0 < n) (hlt : n < 64) :
    addrBit (familyTarget family) n = addrBit (familySeed family) n :=
  addrBit_setAddrBit_of_ne (n := 64) _ _ (by decide) hn (Fin.lt_def.1 hlt).ne

theorem addrBit_familyTarget_64 (family : Byte) : addrBit (familyTarget family) (64 : Position) = true :=
  addrBit_setAddrBit_self (n := 64) _ _ (by decide)

/-- What R156 chooses at a discrepancy after TARGET_FAMILY. -/
theorem chosenBit_familySeed (family : Byte) {n : Position} (hn : 0 < n) :
    chosenBit 64 (familySeed family) n = addrBit (familyTarget family) n := by
  have hle : n ≤ 64 := Fin.le_def.2 (Nat.le_of_lt_succ n.isLt)
  obtain hlt | rfl := lt_or_eq_of_le hle
  · rw [addrBit_familyTarget_of_lt family hn hlt, chosenBit, if_pos hlt]
  · rw [addrBit_familyTarget_64]
    rfl

theorem familyTarget_ne_zeroAddr (family : Byte) : familyTarget family ≠ zeroAddr := fun h =>
  Bool.false_ne_true ((addrBit_zeroAddr 64).symm.trans (h ▸ addrBit_familyTarget_64 family))

/-- The end of a complete pass over the zero address (R159). -/
theorem finishPass_of_zeroAddr {p : Pass} (s : State) (hok : p.ok = true) (hrom : p.rom = zeroAddr) :
    finishPass p s = searchFailure .zeroAddress ((s.setRom p.rom).setPort p.port) := by
  rw [finishPass, if_pos hok, if_pos hrom]
  rfl

/-- The state of a search that TARGET_FAMILY has seeded (R162). -/
structure State.seeded (family : Byte) (s : State) : Prop where
  ld : s.ld = 64
  ldf : s.ldf = false
  rom : s.rom = familySeed family

/-- What TARGET_FAMILY leaves behind (R162). -/
theorem seeded_of_targetFamily {family : Byte} {s u : State} (hu : exec (.targetFamily family) s = .next u) :
    u.seeded family ∧ u.port = s.port := by
  obtain rfl := Host.Outcome.next.inj ((exec_targetFamily family s).symm.trans hu)
  exact ⟨⟨rfl, rfl, rfl⟩, rfl⟩

section
variable {s : State} {rest : List Reply}
  (hline : s.port.line = .scripted (.answer true :: List.replicate 128 (.answer false) ++ rest))
include hline

/-- From the reset registers a line stuck at 0 makes up the zero address (R156, R159). -/
theorem search_of_stuck_of_searchReset (hs : s.searchReset) :
    (search s).response = some [0x04, 0, 0, 0, 0, 0, 0, 0, 0] := by
  obtain ⟨hld, -, hldf, -⟩ := hs
  obtain ⟨hpresence, bits, hlength, hpass, hzero⟩ := searchPass_of_stuck hline
  have hrom : (searchPass s).rom = zeroAddr := addr_eq_of_addrBit fun n hn => by
    rw [hpass.addrBit_of_samplesZero hlength hzero hn, addrBit_zeroAddr, chosenBit, hld, if_neg (Fin.not_lt_zero n)]
    exact decide_eq_false hn.ne'
  rw [search_of_presence hldf hpresence, finishPass_of_zeroAddr s hpass.ok hrom, hrom]
  rfl

/-- In a seeded search it makes up the target, whose last 0 is at position 63 (R156, R162). -/
theorem search_of_stuck_of_seeded {family : Byte} (hs : s.seeded family) :
    (search s).response = some [0x00, family, 0, 0, 0, 0, 0, 0, 0x80] ∧ (search s).ld = 63 ∧
      (search s).ldf = false := by
  obtain ⟨hpresence, bits, hlength, hpass, hzero⟩ := searchPass_of_stuck hline
  have hrom : (searchPass s).rom = familyTarget family := addr_eq_of_addrBit fun n hn => by
    rw [hpass.addrBit_of_samplesZero hlength hzero hn, ← chosenBit_familySeed family hn, hs.ld, hs.rom]
  have hlast : (searchPass s).lastZero = 63 := by
    obtain ⟨hat, hafter⟩ := hpass.lastZero
    have hbit63 : addrBit (searchPass s).rom (63 : Position) = false := by
      rw [hrom, addrBit_familyTarget_of_lt family (by decide) (by decide), addrBit_familySeed family (by decide)]
    have hge : 63 ≤ (searchPass s).lastZero.val := Nat.le_of_not_lt fun h =>
      hafter 63 h (hpass.zeroTaken_of_samplesZero hlength hzero (by decide) hbit63)
    have hne : (searchPass s).lastZero.val ≠ 64 := fun h => by
      have hlast : (searchPass s).lastZero = 64 := Fin.ext h
      have hbit64 := hpass.rom.addrBit_of_zeroTaken (hlast ▸ hat.resolve_left (hlast ▸ by decide))
      rw [hrom, addrBit_familyTarget_64] at hbit64
      exact Bool.false_ne_true hbit64.symm
    have hle := (searchPass s).lastZero.isLt
    exact Fin.ext (show (searchPass s).lastZero.val = 63 by omega)
  rw [search_of_presence hs.ldf hpresence, finishPass_of_ok s hpass.ok (hrom ▸ familyTarget_ne_zeroAddr family), hrom,
    hlast, hs.ldf, toList_familyTarget]
  exact ⟨rfl, rfl, rfl⟩

end

/-- Settles O45: TARGET_FAMILY leaves the line as it is. -/
theorem stuckLineFromResetAndAfterASeed : Obligations.StuckLineFromResetAndAfterASeed := by
  refine fun s rest hline => ⟨fun hs => ⟨_, exec_search s, search_of_stuck_of_searchReset hline hs⟩, fun f u hu => ?_⟩
  obtain ⟨hseeded, hport⟩ := seeded_of_targetFamily hu
  exact ⟨_, exec_search u, search_of_stuck_of_seeded (hport ▸ hline) hseeded⟩

end Sys2Proof.Machine

/-! ## One pass on the ideal bus (R171, R172) -/

namespace Sys2Proof.Machine

/-- The order of R171 is total. -/
theorem searchBefore_trichotomy (x y : Addr) : searchBefore x y ∨ x = y ∨ searchBefore y x := by
  simp only [searchBefore_iff_searchKey_lt]
  exact (lt_trichotomy (searchKey x) (searchKey y)).imp_right (Or.imp_left fun h => searchKey_injective h)

/-- Different addresses have a first position at which they differ. -/
theorem exists_first_difference {x y : Addr} (h : x ≠ y) :
    ∃ n : Position, 0 < n ∧ agreeBelow x y n ∧ addrBit x n ≠ addrBit y n := by
  obtain ⟨n, hn, hagree, hx, hy⟩ | rfl | ⟨n, hn, hagree, hy, hx⟩ := searchBefore_trichotomy x y
  · exact ⟨n, hn, hagree, by rw [hx, hy]; decide⟩
  · exact absurd rfl h
  · exact ⟨n, hn, agreesBefore_symm hagree, by rw [hx, hy]; decide⟩

section
variable {dev : List Addr} {s t : State}

/-- Where the device a SEARCH returned first differs from another one, the SEARCH chose its bit by R156. -/
theorem State.returnsDevice.chosen_of_ne (h : s.returnsDevice dev t) {y : Addr} (hy : y ∈ dev) {n : Position}
    (hn : 0 < n) (hagree : agreeBelow t.rom y n) (hne : addrBit t.rom n ≠ addrBit y n) :
    addrBit t.rom n = chosenBit s.ld s.rom n :=
  h.chosen n hn (forkAt_of_ne h.mem hy (fun _ _ _ => rfl) (agreesBefore_symm hagree) hne)

/-- A SEARCH that resumes after a device returns its successor (R172). -/
theorem State.returnsDevice.successor (h : s.returnsDevice dev t) (hldf : s.ldf = false) (hrom : s.rom ∈ dev)
    (hld : s.ld ≠ 0) (hresume : resumesAt dev s.rom s.ld) :
    searchBefore s.rom t.rom ∧ ∀ z ∈ dev, searchBefore s.rom z → z = t.rom ∨ searchBefore t.rom z := by
  have hs : s.resumable dev := .inr ⟨hrom, hresume⟩
  refine ⟨(h.ahead hldf hs).2.resolve_left hld, fun z hz hbefore => ?_⟩
  exact (searchBefore_trichotomy z t.rom).resolve_left (h.least hs hz ⟨hldf, .inr hbefore⟩)

end

/-- Settles O49, from what a SEARCH that returns a device leaves behind. -/
theorem passReturnsADeviceAndResumes : Obligations.PassReturnsADeviceAndResumes := by
  intro s dev ⟨_, hzero⟩ hdev hbus hldf
  have h := search_returnsDevice hdev hzero hbus hldf
  refine ⟨⟨_, exec_search s, h.mem, h.response, h.resumes, h.ldf, h.bus⟩, fun hrom hld hresume => ?_⟩
  exact ⟨_, exec_search s, h.mem, h.response, h.successor hldf hrom hld hresume⟩

/-! ### The CRC8 of the address is not looked at (R175) -/

/-- A device whose CRC8 byte is wrong: 1, where the CRC8 of seven zero bytes is 0. -/
def wrongCrcDevice : Addr := #v[0, 0, 0, 0, 0, 0, 0, 1]

/-- The reset registers on an ideal bus with that device. -/
def wrongCrcBus : State :=
  State.reset.setPort
    { State.reset.port with line := .ideal { dev := [wrongCrcDevice], part := [], pos := 1, phase := .bit } }

theorem crc8_wrongCrcDevice : crc8 wrongCrcDevice.toList ≠ 0x00 := by decide +kernel

/-- Settles O44: a SEARCH returns the one device of the bus, whose CRC8 byte is wrong. -/
theorem searchDoesNotCheckTheCrc : Obligations.SearchDoesNotCheckTheCrc := by
  have h := search_returnsDevice (s := wrongCrcBus) (dev := [wrongCrcDevice]) (List.cons_ne_nil _ _) (by decide)
    ⟨_, rfl, rfl⟩ rfl
  have hrom : (search wrongCrcBus).rom = wrongCrcDevice := List.mem_singleton.1 h.mem
  obtain ⟨hcheck, -⟩ := checkAddrMatchesAZeroResidue
  refine ⟨wrongCrcBus, search wrongCrcBus, _, rfl, ?_, hcheck _ _, ?_⟩
  · rw [State.statusByte, h.response]
    rfl
  · rw [hrom, if_neg crc8_wrongCrcDevice]

end Sys2Proof.Machine

/-! ## Enumerations (R170, R171) -/

namespace Sys2Proof.Machine

section
variable {dev rest : List Addr} {s t : State}

/-- From the reset registers an enumeration has all devices to return (R170). -/
theorem enumerates_of_searchReset (hbus : s.onIdealBus dev) (hs : s.searchReset) {order : List Addr}
    (hperm : order.Perm dev) (hordered : order.Pairwise searchBefore) : s.enumerates dev order := by
  obtain ⟨hld, -, hldf, -⟩ := hs
  exact ⟨hbus, .inl hld, hordered, fun _ => hperm.mem_iff.trans (and_iff_left ⟨hldf, .inl hld⟩).symm⟩

/-- After a SEARCH that returned a device the enumeration has those after it to return (R172). -/
theorem State.returnsDevice.enumerates (h : s.returnsDevice dev t) (hordered : rest.Pairwise searchBefore)
    (hrest : ∀ z, z ∈ rest ↔ z ∈ dev ∧ searchBefore t.rom z) : t.enumerates dev rest :=
  ⟨h.bus, .inr ⟨h.mem, h.resumes⟩, hordered,
    fun z => (hrest z).trans (and_congr_right fun hz => (h.ahead_iff hz).symm)⟩

/-- When the last device was returned the terminal flag is set (R158). -/
theorem State.enumerates.ldf_of_nil (hzero : zeroAddr ∉ dev) (hdev : dev ≠ []) (h : s.enumerates dev []) :
    s.ldf = true := by
  by_contra hldf
  rw [Bool.not_eq_true] at hldf
  have hreturns := search_returnsDevice hdev hzero h.bus hldf
  exact absurd ((h.mem _).2 ⟨hreturns.mem, hreturns.ahead hldf h.resumable⟩) List.not_mem_nil

/-- As many SEARCHes as there are devices left return them in order (R170, R171). -/
theorem State.enumerates.runSearches_length (hzero : zeroAddr ∉ dev) (h : s.enumerates dev rest) :
    ∃ t, runSearches rest.length s = (rest.map fun x => 0x00 :: x.toList, t) ∧ t.enumerates dev [] := by
  induction rest generalizing s with
  | nil => exact ⟨s, rfl, h⟩
  | cons x rest ih =>
    obtain ⟨hnext, hresponse⟩ := h.search_cons hzero
    obtain ⟨t, hrun, hend⟩ := ih hnext
    refine ⟨t, ?_, hend⟩
    rw [List.length_cons, runSearches_succ, hresponse, hrun]
    rfl

/-- However many SEARCHes follow, they return devices that were left and no others (R170). -/
theorem State.enumerates.mem_of_mem_runSearches (hzero : zeroAddr ∉ dev) (hdev : dev ≠ []) (h : s.enumerates dev rest)
    {address : Addr} {k : Nat} (hmem : 0x00 :: address.toList ∈ (runSearches k s).1) : address ∈ rest := by
  induction k generalizing s rest with
  | zero => exact absurd hmem List.not_mem_nil
  | succ k ih =>
    cases rest with
    | nil =>
      rw [(runSearches_of_ldf (h.ldf_of_nil hzero hdev) _).1] at hmem
      have hstatus := List.head_eq_of_cons_eq (List.eq_of_mem_replicate hmem)
      exact absurd hstatus (by decide)
    | cons x rest =>
      obtain ⟨hnext, hresponse⟩ := h.search_cons hzero
      rw [runSearches_succ, hresponse, List.mem_cons] at hmem
      obtain heq | hlater := hmem
      · rw [Vector.toList_inj.1 (List.tail_eq_of_cons_eq heq)]
        exact List.mem_cons_self
      · exact List.mem_cons_of_mem x (ih hnext hlater)

/-- A bus reset on an ideal bus answers whether there is a device, and leaves the devices as they are (R71). -/
theorem busReset_of_onIdealBus (hbus : s.onIdealBus dev) :
    s.port.busReset.1 = !dev.isEmpty ∧ (s.setPort s.port.busReset.2).onIdealBus dev := by
  obtain ⟨bus, hline, rfl⟩ := hbus
  have hreset := Port.busReset_ideal s.port hline
  exact ⟨congrArg (·.1) hreset, bus.busReset, congrArg (·.2.line) hreset, rfl⟩

/-- On a bus without a device every SEARCH answers NO_PRESENCE (R154, R170). -/
theorem runSearches_of_no_device (hbus : s.onIdealBus []) (hs : s.searchReset) (k : Nat) :
    (runSearches k s).1 = List.replicate k (0x02 :: zeroAddr.toList) := by
  induction k generalizing s with
  | zero => rfl
  | succ k ih =>
    obtain ⟨-, -, hldf, hrom⟩ := hs
    obtain ⟨hpresence, hbus'⟩ := busReset_of_onIdealBus hbus
    have hnext := ih (s := searchFailure .noPresence (s.setPort s.port.busReset.2)) hbus' ⟨rfl, rfl, rfl, hrom⟩
    rw [runSearches_succ, search_of_no_presence hldf hpresence, hnext, List.replicate_succ, ← hrom]
    rfl

end

/-- Settles O50: an enumeration from the reset registers returns the devices in the order of R171, and then the flag is
set. -/
theorem enumerationReturnsEveryDeviceOnce : Obligations.EnumerationReturnsEveryDeviceOnce := by
  refine ⟨fun s dev ⟨hnodup, hzero⟩ hdev hbus hs => ?_, fun s => runSearches_of_no_device⟩
  obtain ⟨order, hperm, hordered⟩ := exists_perm_pairwise_searchBefore hnodup
  obtain ⟨t, hrun, hend⟩ := (enumerates_of_searchReset hbus hs hperm hordered).runSearches_length hzero
  have hldf : t.ldf = true := hend.ldf_of_nil hzero hdev
  refine ⟨order, t, hperm, hordered, hperm.length_eq ▸ hrun, hldf, fun k => ?_⟩
  obtain ⟨hanswers, -, hport⟩ := runSearches_of_ldf hldf k
  exact ⟨hanswers, hport⟩

end Sys2Proof.Machine

/-! ### The set of devices alone (R171) -/

namespace Sys2Proof.Machine

section
variable {dev dev' : List Addr} {x : Addr} {n : Position}

theorem branchLeft_perm (hperm : dev.Perm dev') : branchLeft dev x n ↔ branchLeft dev' x n := by
  simp only [branchLeft, hperm.mem_iff]

theorem forkAt_perm (hperm : dev.Perm dev') : forkAt dev x n ↔ forkAt dev' x n := by
  simp only [forkAt, mem_participants, hperm.mem_iff]

theorem resumesAt_perm (hperm : dev.Perm dev') : resumesAt dev x n ↔ resumesAt dev' x n := by
  simp only [resumesAt, branchLeft_perm hperm]

/-- There is one deepest untaken 1-branch. -/
theorem resumesAt_unique {k k' : Position} (h : resumesAt dev x k) (h' : resumesAt dev x k') : k = k' := by
  have hnot {k k' : Position} (h : resumesAt dev x k) (h' : resumesAt dev x k') : ¬ k < k' := fun hlt =>
    h.2 k' hlt (h'.1.resolve_left ((Fin.zero_le k).trans_lt hlt).ne')
  exact le_antisymm (not_lt.1 (hnot h' h)) (not_lt.1 (hnot h h'))

variable {s : State} {ld : Position} {old : Addr} {p q : Pass}

/-- The pass of a SEARCH on an ideal bus with a device gets to its end (R172). -/
theorem searchPass_tracks (hbus : s.onIdealBus dev) (hdev : dev ≠ []) :
    s.port.busReset.1 = true ∧ (searchPass s).tracks dev s.ld s.rom 65 :=
  (startPass_tracks hbus hdev).imp_right
    (scan_positions_induction (M := Pass.tracks dev s.ld s.rom) (fun h => h.ok) fun hn h => h.scanPosition hn)

/-- There it has written a device. -/
theorem Pass.tracks.rom_mem (h : p.tracks dev ld old 65) : p.rom ∈ dev := by
  obtain ⟨x, hx⟩ := List.exists_mem_of_ne_nil _ h.inhabited
  obtain ⟨hxdev, hxrom⟩ := mem_participants.1 hx
  exact eq_of_agreesBefore hxrom ▸ hxdev

/-- Which one, and where it resumes, is decided by the set of devices: at a first difference both passes chose by
R156. -/
theorem Pass.tracks.eq_of_perm (hperm : dev.Perm dev') (h : p.tracks dev ld old 65) (h' : q.tracks dev' ld old 65) :
    p.rom = q.rom ∧ p.lastZero = q.lastZero := by
  have hrom : p.rom = q.rom := by
    by_contra hne
    obtain ⟨n, hn, hagree, hbit⟩ := exists_first_difference hne
    have hfork : forkAt dev p.rom n :=
      forkAt_of_ne h.rom_mem (hperm.mem_iff.2 h'.rom_mem) (fun _ _ _ => rfl) (agreesBefore_symm hagree) hbit
    have hfork' : forkAt dev' q.rom n := (forkAt_congr hagree).1 ((forkAt_perm hperm).1 hfork)
    exact hbit ((h.chosen n hn n.isLt hfork).trans (h'.chosen n hn n.isLt hfork').symm)
  refine ⟨hrom, resumesAt_unique (resumesAt_of_resumesBefore h.resumes) ?_⟩
  rw [hrom, resumesAt_perm hperm]
  exact resumesAt_of_resumesBefore h'.resumes

end

/-- Two states on ideal buses with the devices `dev` and `dev'` whose SEARCHes read the same registers. -/
structure State.sameSearch (dev dev' : List Addr) (s s' : State) : Prop where
  bus : s.onIdealBus dev
  bus' : s'.onIdealBus dev'
  ld : s.ld = s'.ld
  ldf : s.ldf = s'.ldf
  rom : s.rom = s'.rom

section
variable {dev dev' : List Addr} {s s' : State}

/-- The end of two complete passes that wrote the same address and resume at the same position. -/
theorem finishPass_sameSearch {p p' : Pass} (hbus : (s.setPort p.port).onIdealBus dev)
    (hbus' : (s'.setPort p'.port).onIdealBus dev') (hldf : s.ldf = s'.ldf) (hok : p.ok = true) (hok' : p'.ok = true)
    (hrom : p.rom = p'.rom) (hlast : p.lastZero = p'.lastZero) :
    (finishPass p s).sameSearch dev dev' (finishPass p' s') ∧
      (finishPass p s).response = (finishPass p' s').response := by
  by_cases hzero : p.rom = zeroAddr
  · rw [finishPass_of_zeroAddr s hok hzero, finishPass_of_zeroAddr s' hok' (hrom ▸ hzero), hrom]
    exact ⟨⟨hbus, hbus', rfl, rfl, rfl⟩, rfl⟩
  · rw [finishPass_of_ok s hok hzero, finishPass_of_ok s' hok' (hrom ▸ hzero), hrom, hlast, hldf]
    exact ⟨⟨hbus, hbus', rfl, rfl, rfl⟩, rfl⟩

/-- A SEARCH on the same set of devices answers the same and reads the same registers again (R171). -/
theorem State.sameSearch.search (hperm : dev.Perm dev') (h : s.sameSearch dev dev' s') :
    (search s).sameSearch dev dev' (search s') ∧ (search s).response = (search s').response := by
  obtain ⟨hbus, hbus', hld, hldf, hrom⟩ := h
  cases hflag : s.ldf with
  | true =>
    rw [search_of_ldf hflag, search_of_ldf (hldf ▸ hflag), hrom]
    exact ⟨⟨hbus, hbus', hld, hldf, hrom⟩, rfl⟩
  | false =>
    by_cases hdev : dev = []
    · subst hdev
      obtain rfl := hperm.nil_eq
      obtain ⟨hpresence, hreset⟩ := busReset_of_onIdealBus hbus
      obtain ⟨hpresence', hreset'⟩ := busReset_of_onIdealBus hbus'
      rw [search_of_no_presence hflag hpresence, search_of_no_presence (hldf ▸ hflag) hpresence']
      exact ⟨⟨hreset, hreset', rfl, rfl, hrom⟩, congrArg (fun rom => some (0x02 :: Vector.toList rom)) hrom⟩
    · obtain ⟨hpresence, hpass⟩ := searchPass_tracks hbus hdev
      obtain ⟨hpresence', hpass'⟩ := searchPass_tracks hbus' fun hnil => hdev (List.perm_nil.1 (hnil ▸ hperm))
      rw [← hld, ← hrom] at hpass'
      obtain ⟨hsameRom, hsameLast⟩ := hpass.eq_of_perm hperm hpass'
      rw [search_of_presence hflag hpresence, search_of_presence (hldf ▸ hflag) hpresence']
      exact finishPass_sameSearch ⟨_, hpass.line, rfl⟩ ⟨_, hpass'.line, rfl⟩ hldf hpass.ok hpass'.ok hsameRom hsameLast

/-- So does every later one. -/
theorem State.sameSearch.runSearches (hperm : dev.Perm dev') (h : s.sameSearch dev dev' s') (k : Nat) :
    (runSearches k s).1 = (runSearches k s').1 := by
  induction k generalizing s s' with
  | zero => rfl
  | succ k ih =>
    obtain ⟨hnext, hresponse⟩ := h.search hperm
    rw [runSearches_succ, runSearches_succ, hresponse, ih hnext]

end

/-- Settles O51: two enumerations on one set of devices, run side by side. -/
theorem enumerationOrderDependsOnTheSetAlone : Obligations.EnumerationOrderDependsOnTheSetAlone :=
  fun _ _ _ _ hperm hbus hbus' hld hldf hrom => State.sameSearch.runSearches hperm ⟨hbus, hbus', hld, hldf, hrom⟩

end Sys2Proof.Machine

/-! ## Family searches (R173, R174) -/

namespace Sys2Proof.Machine

/-! ### The family byte (R11) -/

section
variable {x y z w : Addr}

theorem addrBit_of_le_eight {n : Position} (hn : n ≤ 8) (x : Addr) : addrBit x n = x[0].getLsbD (n.val - 1) := by
  have hle : n.val ≤ 8 := hn
  have hbyte : (n.val - 1) / 8 = 0 := by omega
  have hbit : (n.val - 1) % 8 = n.val - 1 := by omega
  rw [addrBit, hbyte, hbit]
  rfl

/-- Addresses have the same family when they agree on the positions 1 to 8. -/
theorem family_eq_iff : x[0] = y[0] ↔ agreesBefore x y 9 := by
  constructor
  · intro h n _ hn9
    have hn : n ≤ 8 := Fin.le_def.2 (Nat.le_of_lt_succ hn9)
    rw [addrBit_of_le_eight hn, addrBit_of_le_eight hn, h]
  · intro h
    refine BitVec.eq_of_getLsbD_eq fun i hi => ?_
    have hle : (⟨i + 1, by omega⟩ : Position) ≤ 8 := Fin.le_def.2 hi
    have hbit := h ⟨i + 1, by omega⟩ (Nat.succ_pos i) (Nat.succ_lt_succ hi)
    rwa [addrBit_of_le_eight hle, addrBit_of_le_eight hle] at hbit

/-- A family is an interval of the order of R171. -/
theorem family_eq_of_between (hxz : searchBefore x z) (hzw : searchBefore z w) (hxw : x[0] = w[0]) : z[0] = w[0] := by
  obtain ⟨n, hn, hagree, hx, hz⟩ := hxz
  obtain ⟨k, hk, hagree', hz', hw⟩ := hzw
  have hfamily := family_eq_iff.1 hxw
  by_contra hne
  have hk9 : k.val < 9 := not_le.1 fun hle => hne (family_eq_iff.2 (agreesBefore_mono hagree' hle))
  have hn9 : n.val < 9 := not_le.1 fun hle =>
    hne ((family_eq_iff.2 (agreesBefore_mono hagree hle)).symm.trans hxw)
  obtain hlt | rfl | hgt := lt_trichotomy k n
  · exact Bool.false_ne_true (hz'.symm.trans ((hagree k hk hlt).symm.trans ((hfamily k hk hk9).trans hw)))
  · exact Bool.false_ne_true (hz'.symm.trans hz)
  · exact Bool.false_ne_true (hx.symm.trans ((hfamily n hn hn9).trans ((hagree' n hn hgt).symm.trans hz)))

/-- Addresses that agree on all 64 positions are equal. -/
theorem eq_of_agreeBelow_64 (h : agreeBelow x y 64) (h64 : addrBit x 64 = addrBit y 64) : x = y :=
  eq_of_agreesBefore ((agreesBefore_succ (n := 64) (by decide)).2 ⟨h, h64⟩)

/-- The other address of a pair that differs at position 64 only. -/
theorem differOnlyAt64.addrBit_eq_true (h : differOnlyAt64 x y) (hbit : addrBit x 64 = false) :
    addrBit y 64 = true := by
  obtain ⟨-, hne⟩ := h
  rw [hbit] at hne
  exact Bool.eq_true_of_not_eq_false hne.symm

end

/-! ### The first SEARCH after TARGET_FAMILY -/

section
variable {dev : List Addr} {family : Byte} {s t : State} {y : Addr} {n : Position}

/-- Where the device returned first differs from another one it has the bit of the target. -/
theorem State.returnsDevice.eq_target_of_ne (h : s.returnsDevice dev t) (hs : s.seeded family) (hy : y ∈ dev)
    (hn : 0 < n) (hagree : agreeBelow t.rom y n) (hne : addrBit t.rom n ≠ addrBit y n) :
    addrBit t.rom n = addrBit (familyTarget family) n := by
  rw [h.chosen_of_ne hy hn hagree hne, hs.ld, hs.rom, chosenBit_familySeed family hn]

/-- Against a device of the family, the device returned is of the family too, and is that device, or comes before it, or
differs from it at position 64 only (R173, R174). -/
theorem State.returnsDevice.first_of_family (h : s.returnsDevice dev t) (hs : s.seeded family) (hy : y ∈ dev)
    (hfamily : y[0] = family) :
    t.rom[0] = family ∧
      (y = t.rom ∨ searchBefore t.rom y ∨ agreeBelow t.rom y 64 ∧ addrBit t.rom 64 = true ∧ addrBit y 64 = false) := by
  by_cases hsame : t.rom = y
  · exact ⟨hsame ▸ hfamily, .inl hsame.symm⟩
  obtain ⟨n, hn, hagree, hne⟩ := exists_first_difference hsame
  have hbit : addrBit t.rom n = addrBit (familyTarget family) n := h.eq_target_of_ne hs hy hn hagree hne
  have hn8 : 8 < n := by
    by_contra hle
    rw [not_lt] at hle
    have hseed : (familySeed family)[0] = y[0] := hfamily.symm
    have hlt : n < 64 := hle.trans_lt (by decide)
    refine hne (hbit.trans ((addrBit_familyTarget_of_lt family hn hlt).trans ?_))
    exact family_eq_iff.1 hseed n hn (Nat.lt_succ_of_le hle)
  refine ⟨(family_eq_iff.2 (agreesBefore_mono hagree hn8)).trans hfamily, .inr ?_⟩
  have hle : n ≤ 64 := Fin.le_def.2 (Nat.le_of_lt_succ n.isLt)
  obtain hlt | rfl := lt_or_eq_of_le hle
  · have hzero : addrBit t.rom n = false := by
      rw [hbit, addrBit_familyTarget_of_lt family hn hlt, addrBit_familySeed family hn8]
    rw [hzero] at hne
    exact .inl ⟨n, hn, hagree, hzero, Bool.eq_true_of_not_eq_false hne.symm⟩
  · have hone : addrBit t.rom (64 : Position) = true := hbit.trans (addrBit_familyTarget_64 family)
    rw [hone] at hne
    exact .inr ⟨hagree, hone, Bool.eq_false_of_not_eq_true hne.symm⟩

end

/-! ### The devices after it -/

section
variable {dev pre rest : List Addr} {x z : Addr} {s : State}

/-- Past the first device of another family there is none of the family of `x` any more. -/
theorem family_ne_of_mem_dropWhile (hordered : (x :: rest).Pairwise searchBefore)
    (hz : z ∈ rest.dropWhile fun y => y[0] == x[0]) : z[0] ≠ x[0] := by
  obtain ⟨hafter, hrest⟩ := List.pairwise_cons.1 hordered
  have hsublist := List.dropWhile_sublist (l := rest) fun y => y[0] == x[0]
  cases hdrop : rest.dropWhile fun y => y[0] == x[0] with
  | nil => exact absurd (hdrop ▸ hz) List.not_mem_nil
  | cons w later =>
    rw [hdrop] at hz hsublist
    have hw : w[0] ≠ x[0] := by
      have hhead := List.head_dropWhile_not (fun y : Addr => y[0] == x[0]) (l := rest) (by simp [hdrop])
      simpa [hdrop] using hhead
    obtain ⟨hlater, -⟩ := List.pairwise_cons.1 (hrest.sublist hsublist)
    intro hzx
    obtain rfl | hmem := List.mem_cons.1 hz
    · exact hw hzx
    · have hxw : searchBefore x w := hafter w (hsublist.subset List.mem_cons_self)
      exact hw ((family_eq_of_between hxw (hlater z hmem) hzx.symm).trans hzx)

/-- From a device on, the order of R171 has first the devices of its family and then those of other families. -/
theorem exists_family_split (hordered : (x :: rest).Pairwise searchBefore) :
    ∃ fam post : List Addr, fam ++ post = x :: rest ∧ fam ≠ [] ∧ (∀ z ∈ fam, z[0] = x[0]) ∧
      ∀ z ∈ post, z[0] ≠ x[0] := by
  refine ⟨x :: rest.takeWhile fun y => y[0] == x[0], rest.dropWhile fun y => y[0] == x[0], ?_, List.cons_ne_nil _ _,
    List.forall_mem_cons.2 ⟨rfl, fun z hz => ?_⟩, fun z => family_ne_of_mem_dropWhile hordered⟩
  · rw [List.cons_append, List.takeWhile_append_dropWhile]
  · exact beq_iff_eq.1 (List.mem_takeWhile_imp (p := fun y : Addr => y[0] == x[0]) hz)

/-- In a list of the devices in the order of R171 those after `x` are the ones that `x` comes before. -/
theorem mem_rest_iff (hperm : (pre ++ x :: rest).Perm dev) (hordered : (pre ++ x :: rest).Pairwise searchBefore) :
    z ∈ rest ↔ z ∈ dev ∧ searchBefore x z := by
  obtain ⟨-, hxrest, hcross⟩ := List.pairwise_append.1 hordered
  obtain ⟨hafter, -⟩ := List.pairwise_cons.1 hxrest
  rw [← hperm.mem_iff, List.mem_append, List.mem_cons]
  refine ⟨fun hz => ⟨.inr (.inr hz), hafter z hz⟩, ?_⟩
  rintro ⟨hpre | rfl | hz, hbefore⟩
  · exact absurd (searchBefore_trans hbefore (hcross z hpre x List.mem_cons_self)) (searchBefore_irrefl x)
  · exact absurd hbefore (searchBefore_irrefl z)
  · exact hz

/-- A SEARCH that returned a device leaves the devices after it to return (R172). -/
theorem State.returnsDevice.enumerates_rest (h : s.returnsDevice dev (search s))
    (hperm : (pre ++ (search s).rom :: rest).Perm dev)
    (hordered : (pre ++ (search s).rom :: rest).Pairwise searchBefore) : (search s).enumerates dev rest := by
  obtain ⟨-, hxrest, -⟩ := List.pairwise_append.1 hordered
  exact h.enumerates (List.pairwise_cons.1 hxrest).2 fun _ => mem_rest_iff hperm hordered

/-- The SEARCHes from there on return it and the devices after it, and then the terminal flag is set (R171). -/
theorem State.returnsDevice.runSearches_eq (hzero : zeroAddr ∉ dev) (h : s.returnsDevice dev (search s))
    (hperm : (pre ++ (search s).rom :: rest).Perm dev)
    (hordered : (pre ++ (search s).rom :: rest).Pairwise searchBefore) :
    ∃ t, runSearches (rest.length + 1) s = (((search s).rom :: rest).map fun x => 0x00 :: x.toList, t) ∧
      t.ldf = true := by
  obtain ⟨t, hrun, hend⟩ := (h.enumerates_rest hperm hordered).runSearches_length hzero
  refine ⟨t, ?_, hend.ldf_of_nil hzero (List.ne_nil_of_mem h.mem)⟩
  rw [runSearches_succ, h.response, hrun]
  rfl

end

/-! ### The statements -/

/-- After TARGET_FAMILY the first SEARCH on an ideal bus with a device returns one (R172, R173). -/
theorem search_returnsDevice_of_seeded {family : Byte} {s u : State} {dev : List Addr} (hdev : dev ≠ [])
    (hzero : zeroAddr ∉ dev) (hbus : s.onIdealBus dev) (hu : exec (.targetFamily family) s = .next u) :
    u.seeded family ∧ u.returnsDevice dev (search u) := by
  obtain ⟨hseeded, hport⟩ := seeded_of_targetFamily hu
  exact ⟨hseeded, search_returnsDevice hdev hzero (by rwa [State.onIdealBus, hport]) hseeded.ldf⟩

/-- Settles O52: the first SEARCH returns the first device of the family, and the enumeration goes on from there. -/
theorem familySearchReturnsTheFamilyFirst : Obligations.FamilySearchReturnsTheFamilyFirst := by
  intro s u dev f ⟨hnodup, hzero⟩ hdev hbus hu
  obtain ⟨hseeded, h⟩ := search_returnsDevice_of_seeded hdev hzero hbus hu
  refine ⟨fun ⟨y, hy, hyf⟩ hpairs => ?_, fun hnone => ⟨_, exec_search u, h.mem, hnone _ h.mem, h.response⟩⟩
  obtain ⟨hfamily, -⟩ := h.first_of_family hseeded hy hyf
  have hfirst (z : Addr) (hz : z ∈ dev) (hzf : z[0] = f) : z = (search u).rom ∨ searchBefore (search u).rom z := by
    obtain ⟨-, hcases⟩ := h.first_of_family hseeded hz hzf
    exact hcases.imp_right fun hcases => hcases.resolve_right fun ⟨hagree, hone, hzero⟩ =>
      hpairs _ h.mem z hz ⟨hagree, fun heq => Bool.false_ne_true (hzero.symm.trans (heq.symm.trans hone))⟩
  obtain ⟨order, hperm, hordered⟩ := exists_perm_pairwise_searchBefore hnodup
  obtain ⟨pre, rest, rfl⟩ := List.append_of_mem (hperm.mem_iff.2 h.mem)
  obtain ⟨t, hrun, hldf⟩ := h.runSearches_eq hzero hperm hordered
  obtain ⟨-, hxrest, hcross⟩ := List.pairwise_append.1 hordered
  obtain ⟨fam, post, hsplit, hne, hfam, hpost⟩ := exists_family_split hxrest
  have hpre (z : Addr) (hz : z ∈ pre) : z[0] ≠ f := fun hzf => by
    have hbefore := hcross z hz _ List.mem_cons_self
    obtain heq | hafter := hfirst z (hperm.mem_iff.1 (List.mem_append_left _ hz)) hzf
    · exact searchBefore_irrefl _ (heq ▸ hbefore)
    · exact searchBefore_irrefl _ (searchBefore_trans hbefore hafter)
  have hlength : rest.length + 1 = fam.length + post.length := by
    rw [← List.length_append, hsplit, List.length_cons]
  rw [← hsplit, ← List.append_assoc] at hperm hordered
  rw [← hsplit, hlength] at hrun
  refine ⟨pre, fam, post, t, hperm, hordered, hne, fun z hz => (hfam z hz).trans hfamily, fun z hz => ?_, hrun, hldf⟩
  exact (List.mem_append.1 hz).elim (hpre z) fun hz => hfamily ▸ hpost z hz

/-- Of a pair that differs at position 64 only, the first SEARCH returns the one with 1 there, if no device of the
family comes before the other (R174). -/
theorem State.returnsDevice.rom_of_pair {dev : List Addr} {family : Byte} {s t : State} {x0 x1 : Addr}
    (h : s.returnsDevice dev t) (hs : s.seeded family) (h0 : x0 ∈ dev) (h1 : x1 ∈ dev) (hpair : differOnlyAt64 x0 x1)
    (hbit : addrBit x0 64 = false) (hfamily : x0[0] = family)
    (hfirst : ∀ y ∈ dev, y[0] = family → y = x0 ∨ searchBefore x0 y) : t.rom = x1 := by
  have hone := differOnlyAt64.addrBit_eq_true hpair hbit
  obtain ⟨hagree, -⟩ := hpair
  obtain ⟨hrom, heq | hbefore | ⟨hagree', hbit', -⟩⟩ := h.first_of_family hs h0 hfamily
  · have htarget := h.eq_target_of_ne hs h1 (n := 64) (by decide) (heq ▸ hagree)
      (heq ▸ fun hsame => Bool.false_ne_true (hbit.symm.trans (hsame.trans hone)))
    rw [addrBit_familyTarget_64, ← heq] at htarget
    exact absurd (hbit.symm.trans htarget) Bool.false_ne_true
  · obtain heq | hafter := hfirst _ h.mem hrom
    · exact absurd (heq ▸ hbefore) (searchBefore_irrefl x0)
    · exact absurd (searchBefore_trans hafter hbefore) (searchBefore_irrefl x0)
  · exact eq_of_agreeBelow_64 (agreesBefore_trans hagree' hagree) (hbit'.trans hone.symm)

/-- Settles O53: the first SEARCH returns the other device of the pair, and the skipped one is not after it. -/
theorem familySearchSkipsAtPosition64 : Obligations.FamilySearchSkipsAtPosition64 := by
  intro s u dev f x0 x1 ⟨hnodup, hzero⟩ hbus h0 h1 hpair hbit hfamily hfirst hu
  have hdev : dev ≠ [] := List.ne_nil_of_mem h0
  obtain ⟨hseeded, h⟩ := search_returnsDevice_of_seeded hdev hzero hbus hu
  have hrom : (search u).rom = x1 := h.rom_of_pair hseeded h0 h1 hpair hbit hfamily hfirst
  have hbefore : searchBefore x0 x1 :=
    ⟨64, by decide, hpair.1, hbit, differOnlyAt64.addrBit_eq_true hpair hbit⟩
  have hne : x0 ≠ x1 := fun heq => searchBefore_irrefl x1 (heq ▸ hbefore)
  refine ⟨⟨_, exec_search u, hrom ▸ h.response⟩, fun k hmem => ?_⟩
  obtain ⟨order, hperm, hordered⟩ := exists_perm_pairwise_searchBefore hnodup
  obtain ⟨pre, rest, rfl⟩ := List.append_of_mem (hperm.mem_iff.2 h.mem)
  cases k with
  | zero => exact List.not_mem_nil hmem
  | succ k =>
    rw [runSearches_succ, h.response, List.mem_cons] at hmem
    obtain heq | hlater := hmem
    · exact hne ((Vector.toList_inj.1 (List.tail_eq_of_cons_eq heq)).trans hrom)
    · have hrest := (h.enumerates_rest hperm hordered).mem_of_mem_runSearches hzero hdev hlater
      obtain ⟨-, hafter⟩ := (mem_rest_iff hperm hordered).1 hrest
      exact searchBefore_irrefl x0 (searchBefore_trans hbefore (hrom ▸ hafter))

end Sys2Proof.Machine

/-! PROOFS. The statements of 60_exceptions.md: an idle block stays as it is (R205), and every step ends in a next
state (R190, R199). -/

/-! ## Every step has one outcome (R199, R205) -/

namespace Sys2Proof.Machine

/-- Settles O8: the step of a state with no input. -/
theorem idleBlockStaysAsItIs : Obligations.IdleBlockStaysAsItIs := fun _ => step_idle

/-- Settles O9, by the kinds of input: a packet is run to a next state, and a reset during a command starts from the
next state that command would have had. -/
theorem everyStepHasANextState : Obligations.EveryStepHasANextState := by
  intro s
  match hinputs : s.inputs with
  | [] => exact ⟨s, step_idle hinputs⟩
  | .packet p :: rest =>
    rw [step_packet hinputs]
    exact runPacket_next p _
  | .hardwareReset :: _ => exact ⟨_, step_hardwareReset hinputs⟩
  | .resetDuring p k :: rest =>
    obtain ⟨_, hreset⟩ := abandonPacket_next p k (s.setInputs rest)
    exact ⟨_, (step_resetDuring hinputs).trans hreset⟩
  | .environment _ _ :: _ => exact ⟨_, step_environment hinputs⟩

end Sys2Proof.Machine

/-! PROOFS. The statements of 70_reset_and_hazards.md: a hardware reset of the idle block (R220) and during a command
(R221), and a change of the environment between commands (R228, R229). -/

/-! ## Issuing recorded transactions again (R15, R221)

A hardware reset during a command is modelled by issuing the first transactions of the command's record from the port
the command started with. This is faithful because a record determines its port: issuing it again gives the same answers
in the same order, and so does every initial part of it. -/

namespace Sys2Proof.Machine

/-- A transaction issued again records one transaction, with the answer it now gets. -/
theorem Port.issue_trace (p : Port) (txn : BusTxn) : ∃ answered, (p.issue txn).trace = p.trace ++ [answered] := by
  cases txn with
  | reset => exact ⟨_, p.busReset_trace⟩
  | writeByte v => exact ⟨_, p.busWriteByte_trace v⟩
  | readBit => exact ⟨_, p.busReadBit_trace⟩
  | writeBit d => exact ⟨_, p.busWriteBit_trace d⟩

theorem Port.foldl_issue_trace (p : Port) (txns : List BusTxn) :
    ∃ answered, answered.length = txns.length ∧ (txns.foldl Port.issue p).trace = p.trace ++ answered := by
  induction txns generalizing p with
  | nil => exact ⟨[], rfl, (List.append_nil _).symm⟩
  | cons txn txns ih =>
    obtain ⟨first, hfirst⟩ := p.issue_trace txn
    obtain ⟨answered, hlength, htrace⟩ := ih (p.issue txn)
    exact ⟨first :: answered, congrArg (· + 1) hlength, by simp [htrace, hfirst]⟩

/-- If a whole record is answered as it was recorded, so is every initial part of it: a transaction adds one entry. -/
theorem Port.foldl_issue_take_trace {p : Port} {txns : List BusTxn}
    (h : (txns.foldl Port.issue p).trace = p.trace ++ txns) (k : Nat) :
    ((txns.take k).foldl Port.issue p).trace = p.trace ++ txns.take k := by
  obtain ⟨before, hlength, hbefore⟩ := p.foldl_issue_trace (txns.take k)
  obtain ⟨after, -, hafter⟩ := ((txns.take k).foldl Port.issue p).foldl_issue_trace (txns.drop k)
  have hsplit : before ++ after = txns.take k ++ txns.drop k := by
    rw [← List.foldl_append, List.take_append_drop, h, hbefore, List.append_assoc] at hafter
    rw [List.take_append_drop]
    exact (List.append_cancel_left hafter).symm
  rw [hbefore, (List.append_inj hsplit hlength).1]

/-- `q` is the port after `txns` were issued from `p`, each answered as it stands in the record. -/
structure Port.issues (p : Port) (txns : List BusTxn) (q : Port) : Prop where
  port : txns.foldl Port.issue p = q
  trace : q.trace = p.trace ++ txns

/-- Some transactions, issued from `p` and answered as recorded, lead to `q`. -/
def Port.leadsTo (p q : Port) : Prop := ∃ txns, p.issues txns q

namespace Port.leadsTo

variable {p q r : Port}

theorem refl (p : Port) : p.leadsTo p := ⟨[], rfl, (List.append_nil _).symm⟩

theorem trans : p.leadsTo q → q.leadsTo r → p.leadsTo r
  | ⟨_, hpq⟩, ⟨_, hqr⟩ =>
    ⟨_, by rw [List.foldl_append, hpq.port, hqr.port], by rw [hqr.trace, hpq.trace, List.append_assoc]⟩

theorem busReset (h : p.leadsTo q) : p.leadsTo q.busReset.2 := h.trans ⟨[.reset _], rfl, q.busReset_trace⟩

theorem busWriteByte (h : p.leadsTo q) (v : Byte) : p.leadsTo (q.busWriteByte v) :=
  h.trans ⟨[.writeByte v], rfl, q.busWriteByte_trace v⟩

theorem busReadBit (h : p.leadsTo q) : p.leadsTo q.busReadBit.2 := h.trans ⟨[.readBit _], rfl, q.busReadBit_trace⟩

theorem busWriteBit (h : p.leadsTo q) (d : Bool) : p.leadsTo (q.busWriteBit d) :=
  h.trans ⟨[.writeBit d], rfl, q.busWriteBit_trace d⟩

end Port.leadsTo

end Sys2Proof.Machine

/-! ## Every command reaches its port by the transactions it records (R151, R221) -/

namespace Sys2Proof.Machine

/-- One position of a pass issues two reads, and a write where it is resolved (R155, R157). -/
theorem scanPosition_leadsTo (ld n : Position) (p : Pass) : p.port.leadsTo (scanPosition ld n p).port := by
  have hreads : p.port.leadsTo p.port.busReadBit.2.busReadBit.2 := (Port.leadsTo.refl _).busReadBit.busReadBit
  obtain ⟨-, -, hfail⟩ | ⟨-, hresolve⟩ := scanPosition_cases ld n p
  · rw [hfail]
    exact hreads
  · rw [hresolve]
    exact hreads.busWriteBit _

theorem scan_leadsTo (ld : Position) (ns : List Position) (p : Pass) : p.port.leadsTo (scan ld ns p).port := by
  induction ns generalizing p with
  | nil => exact .refl _
  | cons n ns ih =>
    cases hok : (scanPosition ld n p).ok with
    | false =>
      rw [scan_cons_fail hok]
      exact scanPosition_leadsTo ld n p
    | true =>
      rw [scan_cons_ok hok]
      exact (scanPosition_leadsTo ld n p).trans (ih _)

/-- A SEARCH issues nothing, a reset alone, or a reset, the search command and a pass (R151). -/
theorem search_leadsTo (s : State) : s.port.leadsTo (search s).port := by
  have hpass : s.port.leadsTo (searchPass s).port :=
    ((Port.leadsTo.refl _).busReset.busWriteByte Config.searchRom).trans
      (scan_leadsTo s.ld positions (startPass s _))
  obtain ⟨-, h⟩ | ⟨-, -, h⟩ | ⟨-, -, -, h⟩ | ⟨-, -, -, -, h⟩ | ⟨-, -, -, -, h⟩ := search_cases s <;> rw [h]
  · exact .refl _
  · exact (Port.leadsTo.refl _).busReset
  · exact hpass
  · exact hpass
  · exact hpass

theorem exec_leadsTo {i : Instr} {s t : State} (ht : exec i s = .next t) : s.port.leadsTo t.port := by
  by_cases hi : i = .search
  · subst hi
    obtain rfl := Host.Outcome.next.inj ht
    exact search_leadsTo s
  · rw [(onlySearchUsesTheBus i s t hi ht).1]
    exact .refl _

theorem runPacket_leadsTo {p : Packet} {s t : State} (ht : runPacket p s = .next t) : s.port.leadsTo t.port := by
  cases hp : decode p with
  | ok i => exact exec_leadsTo ((runPacket_ok s hp).symm.trans ht)
  | error r =>
    obtain rfl := Host.Outcome.next.inj ((runPacket_reject s hp).symm.trans ht)
    exact .refl _

/-- The finished transactions are the first `k` of those the whole command records (R221, log entry 10). -/
theorem finishedTxns_of_trace {s t : State} {txns : List BusTxn} (h : t.port.trace = s.port.trace ++ txns) (k : Nat) :
    finishedTxns s t k = txns.take k := by
  rw [finishedTxns, h, List.drop_left]

theorem abandonPacket_of_next {p : Packet} {s u : State} (hu : runPacket p s = .next u) (k : Nat) :
    abandonPacket p k s = .next (s.setPort ((finishedTxns s u k).foldl Port.issue s.port)).hardwareReset := by
  rw [abandonPacket, hu]

end Sys2Proof.Machine

/-! ## The statements of 70_reset_and_hazards.md -/

namespace Sys2Proof.Machine

/-- Settles O12: the command's record can be issued again, so the finished transactions get the answers they got. -/
theorem resetDuringACommandAbandonsIt : Obligations.ResetDuringACommandAbandonsIt := by
  intro s u p k rest hinputs hu
  obtain ⟨txns, hissues⟩ := runPacket_leadsTo hu
  have hstep := (step_resetDuring hinputs).trans (abandonPacket_of_next hu k)
  rw [finishedTxns_of_trace hissues.trace] at hstep
  have hfinished : ((txns.take k).foldl Port.issue s.port).trace = s.port.trace ++ txns.take k :=
    Port.foldl_issue_take_trace (hissues.port ▸ hissues.trace) k
  refine ⟨_, txns, hstep, ⟨rfl, rfl, rfl, rfl⟩, rfl, rfl, hissues.trace, hfinished, fun hall => ?_⟩
  rw [List.take_of_length_le hall, ← hissues.port]
  rfl

/-- Settles O10: `State.hardwareReset` writes the four items, the response and the mode, and nothing else. -/
theorem hardwareResetLeavesTheResetState : Obligations.HardwareResetLeavesTheResetState :=
  fun _ _ hinputs => step_hardwareReset hinputs

/-- Settles O13: `changeEnvironment` writes the mode and the line, and nothing else. -/
theorem environmentChangeTouchesNoRegister : Obligations.EnvironmentChangeTouchesNoRegister :=
  fun _ _ _ _ hinputs => step_environment hinputs

end Sys2Proof.Machine

/-! PROOFS. The statements of 20_memory.md: one position on the ideal bus (R72, R73), and the reply bytes of the
transport (log entry 13). -/

/-! ## The two reads of one position (R72) -/

namespace Sys2Proof.Machine

theorem IdealBus.busReadBit_bit {b : IdealBus} (free : Bool) (hp : b.phase = .bit) :
    b.busReadBit free = (b.wiredAnd false, { b with phase := .cmp }) := by
  simp [IdealBus.busReadBit, hp]

theorem IdealBus.busReadBit_cmp {b : IdealBus} (free : Bool) (hp : b.phase = .cmp) :
    b.busReadBit free = (b.wiredAnd true, { b with phase := .dir }) := by
  simp [IdealBus.busReadBit, hp]

section
variable {b : IdealBus}

theorem IdealBus.wiredAnd_of_nobody (hpart : b.part = []) (complement : Bool) : b.wiredAnd complement = true := by
  simp [IdealBus.wiredAnd, hpart]

theorem IdealBus.reads_one_iff : b.wiredAnd false = true ∧ b.wiredAnd true = true ↔ b.part = [] := by
  refine ⟨fun ⟨hx, hy⟩ => ?_, fun hpart => ⟨wiredAnd_of_nobody hpart false, wiredAnd_of_nobody hpart true⟩⟩
  by_contra hpart
  obtain ⟨_, rfl, hnot, -⟩ | ⟨hzero, -⟩ := wiredAnd_cases hpart
  · exact Bool.self_ne_not _ ((hx.trans hy.symm).trans hnot)
  · exact Bool.false_ne_true (hzero.symm.trans hx)

theorem IdealBus.reads_zero_iff : b.wiredAnd false = false ∧ b.wiredAnd true = false ↔
    ∃ u ∈ b.part, ∃ v ∈ b.part, addrBit u b.pos ≠ addrBit v b.pos := by
  constructor
  · intro ⟨hx, hy⟩
    have hpart : b.part ≠ [] := fun h => Bool.false_ne_true (hx.symm.trans (wiredAnd_of_nobody h false))
    obtain ⟨_, rfl, hnot, -⟩ | ⟨-, -, ⟨u, hu, hzero⟩, w, hw, hone⟩ := wiredAnd_cases hpart
    · exact absurd ((hx.trans hy.symm).trans hnot) (Bool.self_ne_not _)
    · exact ⟨u, hu, w, hw, by rw [hzero, hone]; exact Bool.false_ne_true⟩
  · intro ⟨u, hu, w, hw, hne⟩
    obtain ⟨_, -, -, hagree⟩ | ⟨hx, hy, -⟩ := wiredAnd_cases (List.ne_nil_of_mem hu)
    · exact absurd ((hagree u hu).trans (hagree w hw).symm) hne
    · exact ⟨hx, hy⟩

theorem IdealBus.reads_differ_iff : b.wiredAnd false ≠ b.wiredAnd true ↔
    b.part ≠ [] ∧ ∀ u ∈ b.part, addrBit u b.pos = b.wiredAnd false := by
  constructor
  · intro hne
    have hpart : b.part ≠ [] := fun h => hne ((wiredAnd_of_nobody h false).trans (wiredAnd_of_nobody h true).symm)
    obtain ⟨_, rfl, -, hagree⟩ | ⟨hx, hy, -⟩ := wiredAnd_cases hpart
    · exact ⟨hpart, hagree⟩
    · exact absurd (hx.trans hy.symm) hne
  · intro ⟨hpart, hall⟩
    obtain ⟨_, rfl, hnot, -⟩ | ⟨hx, -, -, w, hw, hone⟩ := wiredAnd_cases hpart
    · rw [hnot]; exact Bool.self_ne_not _
    · exact absurd (hx.symm.trans ((hall w hw).symm.trans hone)) Bool.false_ne_true

end

/-- Settles O48: the reads are the wired AND of the bits and of their complements, and the write ends the position. -/
theorem idealBusReadsAreWiredAnds : Obligations.IdealBusReadsAreWiredAnds := by
  intro b free d hphase
  refine ⟨_, _, _, _, IdealBus.busReadBit_bit free hphase, IdealBus.busReadBit_cmp free rfl,
    IdealBus.reads_one_iff, IdealBus.reads_zero_iff, IdealBus.reads_differ_iff, ?_⟩
  rw [IdealBus.busWriteBit_dir d rfl, ← hphase]

end Sys2Proof.Machine

/-! ## Reply bytes (log entry 13) -/

namespace Sys2Proof.Machine

theorem Reply.presence_uart_iff {polls : Nat} {byte : Byte} :
    (Reply.uart polls byte).presence = true ↔ polls ≤ Config.spinBound ∧ byte = Config.presenceReply := by
  simp [Reply.presence]

theorem Reply.bit_uart_iff {polls : Nat} {byte : Byte} :
    (Reply.uart polls byte).bit = true ↔ polls ≤ Config.spinBound ∧ Config.echoDecode byte = true := by
  simp [Reply.bit]

/-- Settles O46: a reset and a read answer what the oldest reply means. -/
theorem replyBytesGiveOneBit : Obligations.ReplyBytesGiveOneBit := by
  intro p polls byte rs hline
  rw [Port.busReset_scripted p hline, Port.busReadBit_scripted p hline]
  exact ⟨Reply.presence_uart_iff, Reply.bit_uart_iff⟩

end Sys2Proof.Machine
